-- ==== Sys2Proof/Word.lean ====
section
/-!
DEFINITION. The word types of the engine (00_scope.md R10, R11): fixed patterns of bits. A pattern of a signed type
`sN` is read through `BitVec.toInt`, one of an unsigned type `uN` through `BitVec.toNat` (00_scope.md R15). The
operations on them stand in Machine/Arith.lean.
-/

namespace Sys2Proof

/-- A byte, `b[7:0]` (00_scope.md R10). -/
abbrev Byte := BitVec 8

/-- The two's-complement patterns of `s32` (00_scope.md R11): the temperature and humidity stages' words. -/
abbrev S32 := BitVec 32

/-- The two's-complement patterns of `s64` (00_scope.md R11): the pressure stage's words. -/
abbrev S64 := BitVec 64

/-- A binary32 bit pattern: sign bit 31, exponent field bits 30..23, fraction bits 22..0 (00_scope.md R11). -/
abbrev F32 := BitVec 32

end Sys2Proof
end

