-- ==== Sys2Proof/Syntax.lean ====
section
/-!
DEFINITION. The instructions: one constructor per row of spec/opcode_table.json (30_encoding.md R63 to R66, R70).
A command's only operand is its payload (R69), whose length the opcode fixes (R70), so the length is in the type.
-/

namespace Sys2Proof

/-- The four commands of BCE-CMD v1 (00_scope.md R2). -/
inductive Instr where
  /-- LDCAL, opcode 0x01: load the calibration snapshot from the 32-byte calibration image (R63, 40_load.md R85). -/
  | ldcal (img : Vector Byte 32)
  /-- LDRAW, opcode 0x02: load a raw sample from the 8-byte measurement image (R64, 40_load.md R90). -/
  | ldraw (img : Vector Byte 8)
  /-- COMP, opcode 0x03: compensate the loaded raw sample (R65, 41_compensate.md R101). -/
  | comp
  /-- INVCAL, opcode 0x04: invalidate the calibration snapshot (R66, 40_load.md R95). -/
  | invcal
  deriving DecidableEq, Repr

end Sys2Proof
end

