-- ==== Sys2Proof/WellFormed.lean ====
section
/-!
DEFINITION. A command as it reaches the engine and its well-formedness check (30_encoding.md R62): "For a model, a
command is a pair (opcode : u8, payload : list of u8)".
-/

namespace Sys2Proof

/-- A command as the host hands it over: any opcode byte with any payload (30_encoding.md R62). -/
structure Command where
  opcode : Byte
  payload : List Byte
  deriving DecidableEq, Repr

/-- The check of 30_encoding.md R62: "the opcode is one of the four of rule R70, and the payload length equals that
opcode's length in rule R70". -/
def Command.wellFormed (c : Command) : Bool :=
  (c.opcode == 0x01#8 && c.payload.length == 32) || (c.opcode == 0x02#8 && c.payload.length == 8)
    || (c.opcode == 0x03#8 && c.payload.length == 0) || (c.opcode == 0x04#8 && c.payload.length == 0)

end Sys2Proof
end

