-- ==== Sys2Proof/Decode.lean ====
section
/-!
DEFINITION. Decoding and encoding of commands (30_encoding.md), total on any pair and on any bytes. A command that
is none of the four is rejected by name, never given a meaning (R62).
-/

namespace Sys2Proof

/-- Why a command has no instruction (30_encoding.md R71, R73). -/
inductive Reject where
  /-- The opcode is 0x00 or in 0x05..0xFF (R71). -/
  | illegalCommand
  /-- The opcode is legal and the payload's length is not its length in R70 (R73). -/
  | badLength
  deriving DecidableEq, Repr

/-- LEN of 60_exceptions.md R140, from the opcode map (30_encoding.md R70): the payload bytes of a legal opcode. -/
def opcodeLen (op : Byte) : Option Nat :=
  if op = 0x01#8 then some 32
  else if op = 0x02#8 then some 8
  else if op = 0x03#8 then some 0
  else if op = 0x04#8 then some 0
  else none

/-- A payload as an image of `n` bytes, when it has that length. -/
def imageOf (n : Nat) (p : List Byte) : Option (Vector Byte n) :=
  if h : p.length = n then some ⟨⟨p⟩, h⟩ else none

/-- Decoding of a command pair (30_encoding.md R61 to R66, R70 to R73): the opcode is examined first, then the
payload's length. -/
def decodeCommand (c : Command) : Except Reject Instr :=
  if c.opcode = 0x01#8 then
    match imageOf 32 c.payload with
    | some img => .ok (.ldcal img)
    | none => .error .badLength
  else if c.opcode = 0x02#8 then
    match imageOf 8 c.payload with
    | some img => .ok (.ldraw img)
    | none => .error .badLength
  else if c.opcode = 0x03#8 then
    match c.payload with
    | [] => .ok .comp
    | _ :: _ => .error .badLength
  else if c.opcode = 0x04#8 then
    match c.payload with
    | [] => .ok .invcal
    | _ :: _ => .error .badLength
  else .error .illegalCommand

/-- The first command of a byte stream and the bytes after it (30_encoding.md R72): the opcode tells the payload's
length. Where the stream ends inside the payload, the payload is what there is of it (R73). An illegal opcode is a
command of one byte (95_test_vectors.md, Program E; log entry 4). -/
def nextCommand : List Byte → Option (Command × List Byte)
  | [] => none
  | op :: rest =>
    let n := (opcodeLen op).getD 0
    some ({ opcode := op, payload := rest.take n }, rest.drop n)

/-- Decoding of the first command of a byte stream; `none` where the stream has no byte. -/
def decode (bytes : List Byte) : Option (Except Reject Instr × List Byte) :=
  (nextCommand bytes).map fun p => (decodeCommand p.1, p.2)

/-- `commandsOf` with as many rounds as `fuel` allows. -/
def commandsOfFuel : Nat → List Byte → List Command
  | 0, _ => []
  | fuel + 1, bytes =>
    match nextCommand bytes with
    | none => []
    | some (c, rest) => c :: commandsOfFuel fuel rest

/-- The commands of a byte stream in order (30_encoding.md R72). Each command takes at least one byte, so as many
rounds as the stream has bytes are enough. -/
def commandsOf (bytes : List Byte) : List Command := commandsOfFuel bytes.length bytes

/-- The pair an instruction is (30_encoding.md R63 to R66). -/
def encodeCommand : Instr → Command
  | .ldcal img => { opcode := 0x01#8, payload := img.toList }
  | .ldraw img => { opcode := 0x02#8, payload := img.toList }
  | .comp => { opcode := 0x03#8, payload := [] }
  | .invcal => { opcode := 0x04#8, payload := [] }

/-- The bytes of a command: byte 0 is the opcode, payload byte `i` is command byte `i + 1` (30_encoding.md R61). -/
def commandBytes (c : Command) : List Byte := c.opcode :: c.payload

/-- The bytes of an instruction (30_encoding.md R61 to R66). -/
def encode (i : Instr) : List Byte := commandBytes (encodeCommand i)

/-- A program's encoding: "the concatenation of its commands' encodings in program order" (30_encoding.md R78). -/
def encodeProgram (prog : List Instr) : List Byte := prog.flatMap encode

/-- The bytes of the longest command (30_encoding.md R61: F32, 33 bytes). -/
def longestCommand : Nat := 33

/-- The bytes of a word numbered as spec/opcode_table.json numbers its bits: byte `k` is bits `8k+7..8k`. Bits from
`nbits` on are 0, and there are as many bytes as the longest command has (log entry 5). -/
def tableBytes (nbits w : Nat) : List Byte :=
  (List.range longestCommand).map fun k => BitVec.ofNat 8 (w % 2 ^ nbits / 2 ^ (8 * k))

/-- The command at the start of a table word's bytes. -/
def tableCommand (nbits w : Nat) : Option Command := (nextCommand (tableBytes nbits w)).map Prod.fst

/-- The instruction the decoder reads from a table word; `none` where it refuses. -/
def decodeTableWord (nbits w : Nat) : Option Instr :=
  match tableCommand nbits w with
  | none => none
  | some c =>
    match decodeCommand c with
    | .ok i => some i
    | .error _ => none

end Sys2Proof
end

