-- ==== Sys2Proof/Config.lean ====
section
/-!
DEFINITION. The two named parameters of the engine (00_scope.md R8), "the only points where this spec leaves a value
open". They are fixed for a whole run (70_reset_and_hazards.md R156). There is no other implementation choice and no
free value (93_implementation_defined.md, Part 1: "No behaviour of the engine is left as `any value` or `stuck`").
-/

namespace Sys2Proof

/-- `ADC_H_ORDER` (00_scope.md R8, 40_load.md R92): which byte of the humidity reading is the high one. -/
inductive AdcHOrder where
  /-- Byte 6 of the measurement image is the high byte (the executable default). -/
  | be
  /-- Byte 6 of the measurement image is the low byte. -/
  | le
  deriving DecidableEq, Repr

/-- `P_F32_MODE` (00_scope.md R8, 41_compensate.md R123): how `P_INT` becomes a binary32 pressure in hPa. -/
inductive PF32Mode where
  /-- One rounding of `P_INT / 25600` (the executable default). -/
  | roundOnce
  /-- `P_INT` rounded to binary32, then divided by 256 and 100 in binary32. -/
  | f32Chain
  /-- Integer division by 256 first, then binary32. -/
  | intDivFirst
  deriving DecidableEq, Repr

/-- The two parameters of a run (00_scope.md R8). -/
structure Params where
  adcHOrder : AdcHOrder
  pF32Mode : PF32Mode
  deriving DecidableEq, Repr

/-- The spec's "default for an executable model" of each parameter (00_scope.md R8; 92_eei_decisions.md D18, D25). -/
def Params.executable : Params := { adcHOrder := .be, pF32Mode := .roundOnce }

end Sys2Proof
end

