-- ==== Sys2Proof/Machine/Float32.lean ====
section
/-!
DEFINITION. `RNE32` of 00_scope.md R16: the binary32 value nearest to an exact rational, ties to the value with an even
significand. A rational is given by its numerator and its positive denominator. Magnitudes are counted in units of
2^-149, the smallest binary32 step, so that everything is a natural number.
-/

namespace Sys2Proof.Machine

/-- `num / den` rounded to a natural number: to the nearest, ties to even. -/
def roundHalfEven (num den : Nat) : Nat :=
  let q := num / den
  let r := num % den
  if 2 * r < den then q
  else if den < 2 * r then q + 1
  else q + q % 2

/-- How far the significand of `x` units is shifted left of the unit 2^-149, for `x = num / den` units: 0 below
2^24 units (the subnormal values and the lowest normal ones), else so far that the significand has 24 bits. -/
def f32Shift (num den : Nat) : Nat := (num / den).log2 - 23

/-- The bits 30..0 of the binary32 value nearest to `num / den` units of 2^-149. A significand that rounds up to 2^24
carries into the exponent field by itself; from 2^128 - 2^103 on the value is infinite (log entry 6). -/
def f32Round (num den : Nat) : Nat :=
  let k := f32Shift num den
  min (k * 2 ^ 23 + roundHalfEven num (den * 2 ^ k)) 0x7F800000

/-- `RNE32(n / d)` for `d > 0` (00_scope.md R16). `RNE32(0)` is +0.0. -/
def rne32 (n : Int) (d : Nat) : F32 :=
  BitVec.ofNat 32 ((if n < 0 then 2 ^ 31 else 0) + f32Round (n.natAbs * 2 ^ 149) d)

/-- The exponent field of a binary32 pattern. -/
def f32Exp (a : F32) : Nat := a.toNat / 2 ^ 23 % 2 ^ 8

/-- The fraction field of a binary32 pattern. -/
def f32Frac (a : F32) : Nat := a.toNat % 2 ^ 23

/-- A finite pattern: its exponent field is not all ones. -/
def f32Finite (a : F32) : Bool := f32Exp a != 255

/-- The magnitude of a finite binary32 pattern in units of 2^-149. -/
def f32Units (a : F32) : Nat :=
  if f32Exp a = 0 then f32Frac a else (2 ^ 23 + f32Frac a) * 2 ^ (f32Exp a - 1)

/-- The exact value of a finite binary32 pattern, as a numerator over `f32Den`. -/
def f32Num (a : F32) : Int := if a.msb then -(f32Units a : Int) else (f32Units a : Int)

/-- The denominator of `f32Num`. -/
def f32Den : Nat := 2 ^ 149

/-- `a` is the binary32 value nearest to the rational `n / d`, ties to the value with an even significand (00_scope.md
R16): what the words say, for statements about `rne32` and its callers. Distances are in units of 2^-149 / d. A zero's
sign is not told apart here. -/
def F32Nearest (a : F32) (n : Int) (d : Nat) : Prop :=
  f32Finite a = true ∧ ∀ b : F32, f32Finite b = true →
    (f32Num a * d - n * f32Den).natAbs ≤ (f32Num b * d - n * f32Den).natAbs
    ∧ ((f32Num a * d - n * f32Den).natAbs = (f32Num b * d - n * f32Den).natAbs →
        f32Num b = f32Num a ∨ a.getLsbD 0 = false)

end Sys2Proof.Machine
end

