-- ==== Sys2Proof/Machine/Convert.lean ====
section
/-!
DEFINITION. The three single-precision conversions (41_compensate.md R122 to R124).
-/

namespace Sys2Proof.Machine

/-- `CVT_T(T_INT) = RNE32(T_INT / 100)`, in °C (R122). -/
def cvtT (t : S32) : F32 := rne32 t.toInt 100

/-- `CVT_P(P_INT, mode)`, in hPa (R123). The binary32 value of the first rounding is divided exactly and rounded once
more. -/
def cvtP (mode : PF32Mode) (p : S64) : F32 :=
  match mode with
  | .roundOnce => rne32 p.toInt 25600
  | .f32Chain =>
    let a := rne32 p.toInt 1
    rne32 (f32Num a) (f32Den * 256 * 100)
  | .intDivFirst =>
    let a := rne32 (p.toInt.tdiv 256) 1
    rne32 (f32Num a) (f32Den * 100)

/-- `CVT_H(H_INT) = H_INT / 1024`, in %RH, exact (R124). -/
def cvtH (h : BitVec 32) : F32 := rne32 h.toNat 1024

end Sys2Proof.Machine
end

