-- ==== Sys2Proof/Machine/Arith.lean ====
section
/-!
DEFINITION. The integer primitives of 00_scope.md R12 to R16, as the rules say them: the exact integer result, then
one explicit return into the type. The operand type's width tells add32 from add64 and so on.
-/

namespace Sys2Proof.Machine

/-- `wrapN(x)`: the pattern of the integer in sN that is congruent to `x` modulo 2^N (R12). -/
def wrap (n : Nat) (x : Int) : BitVec n := BitVec.ofInt n x

/-- `add32`, `add64`: the exact sum, wrapped (R12). -/
def addW {n : Nat} (x y : BitVec n) : BitVec n := wrap n (x.toInt + y.toInt)

/-- `sub32`, `sub64`: the exact difference, wrapped (R12). -/
def subW {n : Nat} (x y : BitVec n) : BitVec n := wrap n (x.toInt - y.toInt)

/-- `mul32`, `mul64`: the exact product, wrapped (R12). -/
def mulW {n : Nat} (x y : BitVec n) : BitVec n := wrap n (x.toInt * y.toInt)

/-- `shl32`, `shl64`: `wrapN(x · 2^k)` (R13). -/
def shlW {n : Nat} (x : BitVec n) (k : Nat) : BitVec n := wrap n (x.toInt * 2 ^ k)

/-- `asr(x, k)`: the arithmetic right shift, `floor(x / 2^k)` (R13). -/
def asr {n : Nat} (x : BitVec n) (k : Nat) : BitVec n := wrap n (x.toInt / 2 ^ k)

/-- `quot64(a, b)` for `b ≠ 0`: the quotient rounded toward zero, wrapped (R14). -/
def quot64 (a b : S64) : S64 := wrap 64 (a.toInt.tdiv b.toInt)

/-- `sext_N(v)` as a word of width `n`: the pattern's two's-complement value (R15). -/
def sext (n : Nat) {m : Nat} (v : BitVec m) : BitVec n := wrap n v.toInt

/-- `zext_N(v)` as a word of width `n`: the pattern's unsigned value (R15). -/
def zext (n : Nat) {m : Nat} (v : BitVec m) : BitVec n := wrap n v.toNat

/-- `clamp(x, lo, hi)` with signed comparisons (R16). -/
def clampW {n : Nat} (x lo hi : BitVec n) : BitVec n :=
  if x.toInt < lo.toInt then lo else if hi.toInt < x.toInt then hi else x

end Sys2Proof.Machine
end

