-- ==== Sys2Proof/Machine/State.lean ====
section
/-!
DEFINITION. The engine's state as plain data: the record of 10_state.md R44, with two fields of the model's own
(`params`, log entry 2, and `inputs`, log entry 1). A register that holds no value (R39) is `none`: the Option fields
are the `opt` fields of R44. The engine has no memory (20_memory.md R45), so there is none here.
-/

namespace Sys2Proof.Machine

/-- The calibration register file (10_state.md R22): 18 registers under the spec's names. dig_T1, dig_P1, dig_H1 and
dig_H3 are unsigned; the others are two's complement. -/
structure Cal where
  dig_T1 : BitVec 16
  dig_T2 : BitVec 16
  dig_T3 : BitVec 16
  dig_P1 : BitVec 16
  dig_P2 : BitVec 16
  dig_P3 : BitVec 16
  dig_P4 : BitVec 16
  dig_P5 : BitVec 16
  dig_P6 : BitVec 16
  dig_P7 : BitVec 16
  dig_P8 : BitVec 16
  dig_P9 : BitVec 16
  dig_H1 : BitVec 8
  dig_H2 : BitVec 16
  dig_H3 : BitVec 8
  dig_H4 : BitVec 12
  dig_H5 : BitVec 12
  dig_H6 : BitVec 8
  deriving DecidableEq, Repr

/-- The raw register file (10_state.md R25): three unsigned registers. -/
structure Raw where
  adc_P : BitVec 20
  adc_T : BitVec 20
  adc_H : BitVec 16
  deriving DecidableEq, Repr

/-- The result registers (10_state.md R28, R29): T_INT s32, P_INT s64, H_INT u32 and the three binary32 values. -/
structure Res where
  t_int : S32
  p_int : S64
  h_int : BitVec 32
  t_f32 : F32
  p_f32 : F32
  h_f32 : F32
  deriving DecidableEq, Repr

/-- What the host does to the engine between two steps (30_encoding.md R62, 70_reset_and_hazards.md R153, R170).
Reading a register has no effect and is `State.hostRead`, not an input. -/
inductive HostInput where
  /-- The host issues a command. -/
  | command (c : Command)
  /-- The host asserts reset. -/
  | reset
  deriving DecidableEq, Repr

/-- The causes of the engine's own faults (60_exceptions.md R137). Taking one is a next state (R138). -/
inductive FaultCause where
  /-- The opcode is not one of the four. -/
  | illegalCommand
  /-- The payload's length is not the opcode's. -/
  | badLength
  /-- COMP with CAL_VALID = 0. -/
  | calNotValid
  /-- COMP with CAL_VALID = 1 and RAW_VALID = 0. -/
  | rawNotLoaded
  deriving DecidableEq, Repr

/-- The engine's state (10_state.md R20, R44). -/
structure State where
  /-- The calibration file; `none` exactly when CAL_VALID = 0 (R24, R44). -/
  cal : Option Cal
  /-- The raw file; `none` exactly when RAW_VALID = 0 (R26, R44). -/
  raw : Option Raw
  /-- TFINE, s32 (R27). -/
  tfine : Option S32
  /-- The six result registers (R28, R29). -/
  res : Option Res
  /-- STATUS bit 2 (R30). -/
  resultValid : Bool
  /-- STATUS bit 3 (R33). -/
  pDenomZero : Bool
  /-- STATUS bit 4 (R34). -/
  hClampLo : Bool
  /-- STATUS bit 5 (R34). -/
  hClampHi : Bool
  /-- FAULT_CAUSE (R35); STATUS bit 7 is "FAULT_CAUSE is not 0". -/
  faultCause : BitVec 8
  /-- The command index (R36), the model's program counter. -/
  idx : Nat
  /-- What the host has issued and the engine has not yet taken, in the order of acceptance (20_memory.md R55, R56).
  DESIGN CHOICE, safe: log entry 1. -/
  inputs : List HostInput
  /-- The run's parameters (00_scope.md R8). DESIGN CHOICE, unsafe for a claim about one named start state only: log
  entry 2. -/
  params : Params
  deriving DecidableEq, Repr

/-- The model's own stops. There is none: every command is total on every state, and a fault of the engine is a next
state (60_exceptions.md R138, R140; 93_implementation_defined.md, Part 1). Safe: log entry 10. -/
inductive Fault where
  deriving DecidableEq, Repr

/-- Why a step has no meaning. -/
inductive Refusal where
  /-- Raised by an arm of `exec` whose instruction has no meaning yet. No arm raises it in this model. Safe. -/
  | notModelled (mnemonic : String)
  deriving DecidableEq, Repr

/-- The machine right after reset (10_state.md R40, 70_reset_and_hazards.md R154): every data register holds no value,
STATUS and FAULT_CAUSE are 0x00, the command index is 0. The host has issued nothing yet, and the parameters are the
spec's executable defaults (log entries 1 and 2). -/
def State.reset : State where
  cal := none
  raw := none
  tfine := none
  res := none
  resultValid := false
  pDenomZero := false
  hClampLo := false
  hClampHi := false
  faultCause := 0x00#8
  idx := 0
  inputs := []
  params := Params.executable

end Sys2Proof.Machine
end

