-- ==== Sys2Proof/Machine/Humidity.lean ====
section
/-!
DEFINITION. The humidity stage of COMP, STAGE_H (41_compensate.md R118 to R121), in s32. The lines the spec marks G are
the vendor's arrangement, which the spec supplies from general knowledge (log entry 9).
-/

namespace Sys2Proof.Machine

/-- The seed `v = t_fine - 76800` (R119). -/
def humSeed (tf : S32) : S32 := subW tf 76800#32

/-- `x1` after its shift by 15 (R119). -/
def humX1 (adcH : BitVec 16) (tf : S32) (c : Cal) : S32 :=
  let x1 := subW (subW (shlW (zext 32 adcH) 14) (shlW (sext 32 c.dig_H4) 20))
    (mulW (sext 32 c.dig_H5) (humSeed tf))
  asr (addW x1 16384#32) 15

/-- `y` after its shift by 14 (R119). -/
def humY (tf : S32) (c : Cal) : S32 :=
  let v := humSeed tf
  let y1 := asr (mulW v (sext 32 c.dig_H6)) 10
  let y2 := addW (asr (mulW v (zext 32 c.dig_H3)) 11) 32768#32
  let y := addW (asr (mulW y1 y2) 10) 2097152#32
  asr (addW (mulW y (sext 32 c.dig_H2)) 8192#32) 14

/-- `v` before the clamp (R119). -/
def humUnclamped (adcH : BitVec 16) (tf : S32) (c : Cal) : S32 :=
  let v := mulW (humX1 adcH tf c) (humY tf c)
  let s := asr v 15
  subW v (asr (mulW (asr (mulW s s) 7) (zext 32 c.dig_H1)) 4)

/-- The upper bound of the clamp (R120). -/
def humMax : S32 := 419430400#32

/-- H_INT: the clamped value shifted right by 12 (R120, R121). -/
def humInt (v : S32) : BitVec 32 := asr (clampW v 0#32 humMax) 12

end Sys2Proof.Machine
end

