-- ==== Sys2Proof/Machine/Ops.lean ====
section
/-!
DEFINITION. The named operations on the state: every write a command, a fault entry or a reset makes goes through one
of these. TAKING A FAULT is `State.takeFault`; the only way back from one is `State.hostReset` (60_exceptions.md R142).
-/

namespace Sys2Proof.Machine

/-- CAL_VALID, STATUS bit 0: the calibration file holds a snapshot (10_state.md R24, R44). -/
def State.calValid (s : State) : Bool := s.cal.isSome

/-- RAW_VALID, STATUS bit 1: the raw file holds values (10_state.md R26, R44). -/
def State.rawValid (s : State) : Bool := s.raw.isSome

/-- FAULT, STATUS bit 7: "FAULT = 1 exactly when FAULT_CAUSE ≠ 0" (10_state.md R35). -/
def State.fault (s : State) : Bool := s.faultCause != 0x00#8

/-- The cause codes as held in FAULT_CAUSE (60_exceptions.md R137). -/
def FaultCause.code : FaultCause → BitVec 8
  | .illegalCommand => 0x01#8
  | .badLength => 0x02#8
  | .calNotValid => 0x03#8
  | .rawNotLoaded => 0x04#8

/-- Fault entry (60_exceptions.md R138): FAULT_CAUSE takes the cause's code, and with it FAULT becomes 1 (R35).
"Nothing else is saved or changed". -/
def State.takeFault (cause : FaultCause) (s : State) : State := { s with faultCause := cause.code }

/-- The command index moves on by exactly 1 (10_state.md R36). -/
def State.advance (s : State) : State := { s with idx := s.idx + 1 }

/-- The calibration file takes all 18 registers at once; RESULT_VALID falls (40_load.md R86). -/
def State.loadCal (c : Cal) (s : State) : State := { s with cal := some c, resultValid := false }

/-- The calibration file is emptied; RESULT_VALID falls (40_load.md R95). -/
def State.clearCal (s : State) : State := { s with cal := none, resultValid := false }

/-- The raw file takes all three registers at once; RESULT_VALID falls (40_load.md R93). -/
def State.loadRaw (r : Raw) (s : State) : State := { s with raw := some r, resultValid := false }

/-- What one compensation computes: TFINE, the six results and the three condition flags (41_compensate.md R102). -/
structure CompResult where
  tfine : S32
  res : Res
  pDenomZero : Bool
  hClampLo : Bool
  hClampHi : Bool
  deriving DecidableEq, Repr

/-- The write set of COMP, all at once: TFINE, the results, STATUS bits 3 to 5, and RESULT_VALID becomes 1
(41_compensate.md R126, R127). -/
def State.writeResult (o : CompResult) (s : State) : State :=
  { s with
    tfine := some o.tfine
    res := some o.res
    resultValid := true
    pDenomZero := o.pDenomZero
    hClampLo := o.hClampLo
    hClampHi := o.hClampHi }

/-- Reset by the host (70_reset_and_hazards.md R153): every piece of state takes its value from 10_state.md R40. The
parameters are not state (R156) and what the host has issued after the reset is still to come, so both are kept. -/
def State.hostReset (s : State) : State := { State.reset with inputs := s.inputs, params := s.params }

/-- The next host input is taken from the list. -/
def State.dropInput (s : State) : State := { s with inputs := s.inputs.tail }

/-- The host issues commands: they join the end of the list (20_memory.md R55). -/
def State.issue (cs : List Command) (s : State) : State :=
  { s with inputs := s.inputs ++ cs.map HostInput.command }

end Sys2Proof.Machine
end

