-- ==== Sys2Proof/Machine/Pressure.lean ====
section
/-!
DEFINITION. The pressure stage of COMP, STAGE_P (41_compensate.md R109 to R116), in s64. The lines the spec marks G are
the vendor's arrangement, which the spec supplies from general knowledge (log entry 9).
-/

namespace Sys2Proof.Machine

/-- The seed `v1 = t_fine - 128000` (R110). -/
def presSeed (tf : S32) : S64 := subW (sext 64 tf) 128000#64

/-- The first polynomial term, the source's varP2 (R111). -/
def presVarP2 (tf : S32) (c : Cal) : S64 :=
  let v1 := presSeed tf
  let v2 := mulW (mulW v1 v1) (sext 64 c.dig_P6)
  let v2 := addW v2 (shlW (mulW v1 (sext 64 c.dig_P5)) 17)
  addW v2 (shlW (sext 64 c.dig_P4) 35)

/-- The wrapped product whose bits from 33 up are the denominator (R112, R113). -/
def presScaled (tf : S32) (c : Cal) : S64 :=
  let v1 := presSeed tf
  let v1 := addW (asr (mulW (mulW v1 v1) (sext 64 c.dig_P3)) 8) (shlW (mulW v1 (sext 64 c.dig_P2)) 12)
  mulW (addW (shlW 1#64 47) v1) (zext 64 c.dig_P1)

/-- The denominator, the source's varP1 (R112). -/
def presVarP1 (tf : S32) (c : Cal) : S64 := asr (presScaled tf c) 33

/-- The numerator of the central division (R114). -/
def presNumerator (adcP : BitVec 20) (tf : S32) (c : Cal) : S64 :=
  let p := subW 1048576#64 (zext 64 adcP)
  mulW (subW (shlW p 31) (presVarP2 tf c)) 3125#64

/-- The two corrections from dig_P9 and dig_P8 and the final value, for the quotient `p` (R115, R116). -/
def presCorrected (p : S64) (c : Cal) : S64 :=
  let u1 := asr (mulW (mulW (sext 64 c.dig_P9) (asr p 13)) (asr p 13)) 25
  let u2 := asr (mulW (sext 64 c.dig_P8) p) 19
  addW (asr (addW (addW p u1) u2) 8) (shlW (sext 64 c.dig_P7) 4)

/-- The zero-denominator condition `z` (R113). -/
def presDenomZero (tf : S32) (c : Cal) : Bool := presVarP1 tf c == 0#64

/-- P_INT (R113, R114, R116): 0 where the denominator is 0, and then no division is made. -/
def presInt (adcP : BitVec 20) (tf : S32) (c : Cal) : S64 :=
  if presDenomZero tf c then 0#64
  else presCorrected (quot64 (presNumerator adcP tf c) (presVarP1 tf c)) c

end Sys2Proof.Machine
end

