-- ==== Sys2Proof/Machine/Flags.lean ====
section
/-!
DEFINITION. The condition flags COMP computes (41_compensate.md R126) and the STATUS register (10_state.md R31, R44).
-/

namespace Sys2Proof.Machine

/-- P_DENOM_ZERO: 1 exactly when varP1 = 0 (41_compensate.md R113, R126). -/
def flagPDenomZero (tf : S32) (c : Cal) : Bool := presDenomZero tf c

/-- H_CLAMP_LO: the value was below 0 before the clamp (41_compensate.md R120). -/
def flagHClampLo (v : S32) : Bool := decide (v.toInt < 0)

/-- H_CLAMP_HI: the value was above 419430400 before the clamp (41_compensate.md R120). -/
def flagHClampHi (v : S32) : Bool := decide (humMax.toInt < v.toInt)

/-- A flag at its place in STATUS. -/
def statusBit (b : Bool) (k : Nat) : BitVec 8 := (if b then 1#8 else 0#8) <<< k

/-- STATUS (10_state.md R44): `CAL_VALID | RAW_VALID<<1 | result_valid<<2 | p_denom_zero<<3 | h_clamp_lo<<4 |
h_clamp_hi<<5 | FAULT<<7`. Bit 6 is 0 (R32). -/
def State.status (s : State) : BitVec 8 :=
  statusBit s.calValid 0 ||| statusBit s.rawValid 1 ||| statusBit s.resultValid 2 ||| statusBit s.pDenomZero 3
    ||| statusBit s.hClampLo 4 ||| statusBit s.hClampHi 5 ||| statusBit s.fault 7

end Sys2Proof.Machine
end

