-- ==== Sys2Proof/Machine/Temperature.lean ====
section
/-!
DEFINITION. The temperature stage of COMP, STAGE_T (41_compensate.md R103 to R107), in s32. The lines the spec marks G
are the vendor's arrangement, which the spec supplies from general knowledge (log entry 9).
-/

namespace Sys2Proof.Machine

/-- `var1` (R104). -/
def tempVar1 (adcT : BitVec 20) (c : Cal) : S32 :=
  let a := asr (zext 32 adcT) 3
  let b := shlW (zext 32 c.dig_T1) 1
  asr (mulW (subW a b) (sext 32 c.dig_T2)) 11

/-- `var2` (R104). -/
def tempVar2 (adcT : BitVec 20) (c : Cal) : S32 :=
  let d := subW (asr (zext 32 adcT) 4) (zext 32 c.dig_T1)
  asr (mulW (asr (mulW d d) 12) (sext 32 c.dig_T3)) 14

/-- `t_fine` (R104), the one value that passes between stages (R106). -/
def tempFine (adcT : BitVec 20) (c : Cal) : S32 := addW (tempVar1 adcT c) (tempVar2 adcT c)

/-- `T_INT = asr(add32(mul32(t_fine, 5), 128), 8)` (R107). -/
def tempInt (tf : S32) : S32 := asr (addW (mulW tf 5#32) 128#32) 8

end Sys2Proof.Machine
end

