-- ==== Sys2Proof/Machine/Compensate.lean ====
section
/-!
DEFINITION. The compensation family (41_compensate.md): COMP.
-/

namespace Sys2Proof.Machine

/-- The pure function of COMP (41_compensate.md R102, R129): the three stages, of which the pressure and humidity
stages take this compensation's own t_fine (R106), the three conversions and the condition flags. -/
def compensate (mode : PF32Mode) (c : Cal) (r : Raw) : CompResult :=
  let tf := tempFine r.adc_T c
  let t := tempInt tf
  let p := presInt r.adc_P tf c
  let v := humUnclamped r.adc_H tf c
  let h := humInt v
  { tfine := tf
    res :=
      { t_int := t
        p_int := p
        h_int := h
        t_f32 := cvtT t
        p_f32 := cvtP mode p
        h_f32 := cvtH h }
    pDenomZero := flagPDenomZero tf c
    hClampLo := flagHClampLo v
    hClampHi := flagHClampHi v }

/-- COMP (41_compensate.md R101, R102): CAL_NOT_VALID, else RAW_NOT_LOADED, else the compensation's results, all
written at once. -/
def execComp (s : State) : Host.Outcome State Fault Refusal :=
  match s.cal with
  | none => .next (s.takeFault .calNotValid)
  | some c =>
    match s.raw with
    | none => .next (s.takeFault .rawNotLoaded)
    | some r => .next (s.writeResult (compensate s.params.pF32Mode c r))

end Sys2Proof.Machine
end

