-- ==== Sys2Proof/Machine/Operands.lean ====
section
/-!
DEFINITION. Operand assembly: every value a payload spells (30_encoding.md R67, R68; 40_load.md R81 to R84, R91, R92)
and, beside it, the way back from fields to payload bytes (30_encoding.md R76).
-/

namespace Sys2Proof.Machine

/-- `unsigned16`: both bytes zero-extended, little-endian combine (40_load.md R81). -/
def unsigned16 (lo hi : Byte) : BitVec 16 := zext 16 lo ||| shlW (zext 16 hi) 8

/-- `signed16`: low byte zero-extended, high byte sign-extended, combined in s32; the s16 result's pattern (40_load.md
R82). -/
def signed16 (lo hi : Byte) : BitVec 16 := (zext 32 lo ||| shlW (sext 32 hi) 8).setWidth 16

/-- `packH4(b3, b4) = sext_12((b3 << 4) | (b4 & 0x0F))`: its 12-bit pattern (40_load.md R84). -/
def packH4 (b3 b4 : Byte) : BitVec 12 := (b3.setWidth 12 <<< 4) ||| (b4 &&& 0x0F#8).setWidth 12

/-- `packH5(b5, b4) = sext_12((b5 << 4) | (b4 >> 4))`, with `b4 >> 4` the unsigned high nibble: its 12-bit pattern
(40_load.md R84). -/
def packH5 (b5 b4 : Byte) : BitVec 12 := (b5.setWidth 12 <<< 4) ||| (b4 >>> 4).setWidth 12

/-- The 18 coefficients of a calibration image (40_load.md R86; layout 30_encoding.md R67). -/
def decodeCal (img : Vector Byte 32) : Cal where
  dig_T1 := unsigned16 img[0] img[1]
  dig_T2 := signed16 img[2] img[3]
  dig_T3 := signed16 img[4] img[5]
  dig_P1 := unsigned16 img[6] img[7]
  dig_P2 := signed16 img[8] img[9]
  dig_P3 := signed16 img[10] img[11]
  dig_P4 := signed16 img[12] img[13]
  dig_P5 := signed16 img[14] img[15]
  dig_P6 := signed16 img[16] img[17]
  dig_P7 := signed16 img[18] img[19]
  dig_P8 := signed16 img[20] img[21]
  dig_P9 := signed16 img[22] img[23]
  dig_H1 := img[24]
  dig_H2 := signed16 img[25] img[26]
  dig_H3 := img[27]
  dig_H4 := packH4 img[28] img[29]
  dig_H5 := packH5 img[30] img[29]
  dig_H6 := img[31]

/-- A pressure or temperature reading: `((b0 << 16) | (b1 << 8) | b2) >> 4`, a u20 (40_load.md R91). -/
def reading20 (b0 b1 b2 : Byte) : BitVec 20 :=
  (((b0.setWidth 24 <<< 16) ||| (b1.setWidth 24 <<< 8) ||| b2.setWidth 24) >>> 4).setWidth 20

/-- The humidity reading in the order `ADC_H_ORDER` gives, a u16 (40_load.md R92). -/
def readingH (order : AdcHOrder) (b6 b7 : Byte) : BitVec 16 :=
  match order with
  | .be => (b6.setWidth 16 <<< 8) ||| b7.setWidth 16
  | .le => b6.setWidth 16 ||| (b7.setWidth 16 <<< 8)

/-- The three raw values of a measurement image (40_load.md R93; layout 30_encoding.md R68). -/
def decodeRaw (order : AdcHOrder) (img : Vector Byte 8) : Raw where
  adc_P := reading20 img[0] img[1] img[2]
  adc_T := reading20 img[3] img[4] img[5]
  adc_H := readingH order img[6] img[7]

/-- The low byte of a 16-bit field. -/
def lowByte (v : BitVec 16) : Byte := v.setWidth 8

/-- The high byte of a 16-bit field. -/
def highByte (v : BitVec 16) : Byte := (v >>> 8).setWidth 8

/-- The field form of LDCAL as its 32 payload bytes (30_encoding.md R76). -/
def encodeCal (c : Cal) : Vector Byte 32 :=
  #v[lowByte c.dig_T1, highByte c.dig_T1, lowByte c.dig_T2, highByte c.dig_T2,
     lowByte c.dig_T3, highByte c.dig_T3, lowByte c.dig_P1, highByte c.dig_P1,
     lowByte c.dig_P2, highByte c.dig_P2, lowByte c.dig_P3, highByte c.dig_P3,
     lowByte c.dig_P4, highByte c.dig_P4, lowByte c.dig_P5, highByte c.dig_P5,
     lowByte c.dig_P6, highByte c.dig_P6, lowByte c.dig_P7, highByte c.dig_P7,
     lowByte c.dig_P8, highByte c.dig_P8, lowByte c.dig_P9, highByte c.dig_P9,
     c.dig_H1, lowByte c.dig_H2, highByte c.dig_H2, c.dig_H3,
     (c.dig_H4 >>> 4).setWidth 8,
     (c.dig_H4.setWidth 8 &&& 0x0F#8) ||| (c.dig_H5.setWidth 8 <<< 4),
     (c.dig_H5 >>> 4).setWidth 8, c.dig_H6]

/-- The field form of LDRAW as its 8 payload bytes (30_encoding.md R76); the discarded low nibbles are written 0. -/
def encodeRaw (order : AdcHOrder) (r : Raw) : Vector Byte 8 :=
  #v[(r.adc_P >>> 12).setWidth 8, (r.adc_P >>> 4).setWidth 8, r.adc_P.setWidth 8 <<< 4,
     (r.adc_T >>> 12).setWidth 8, (r.adc_T >>> 4).setWidth 8, r.adc_T.setWidth 8 <<< 4,
     match order with | .be => highByte r.adc_H | .le => lowByte r.adc_H,
     match order with | .be => lowByte r.adc_H | .le => highByte r.adc_H]

end Sys2Proof.Machine
end

