-- ==== Sys2Proof/Machine/Load.lean ====
section
/-!
DEFINITION. The load family (40_load.md): LDCAL, LDRAW and INVCAL. Each meaning is the command's rule, which starts
after the common entry checks of 60_exceptions.md R140 (Machine/Entry.lean; log entry 7).
-/

namespace Sys2Proof.Machine

/-- LDCAL (40_load.md R86): a no-op while CAL_VALID = 1 (R87), else all 18 registers at once. -/
def execLdcal (img : Vector Byte 32) (s : State) : Host.Outcome State Fault Refusal :=
  if s.calValid then .next s else .next (s.loadCal (decodeCal img))

/-- LDRAW (40_load.md R93). It does not require CAL_VALID = 1 (R90). -/
def execLdraw (img : Vector Byte 8) (s : State) : Host.Outcome State Fault Refusal :=
  .next (s.loadRaw (decodeRaw s.params.adcHOrder img))

/-- INVCAL (40_load.md R95): a no-op while CAL_VALID = 0 (R96), else the calibration file is emptied. -/
def execInvcal (s : State) : Host.Outcome State Fault Refusal :=
  if s.calValid then .next s.clearCal else .next s

end Sys2Proof.Machine
end

