-- ==== Sys2Proof/Machine/Dispatch.lean ====
section
/-! DEFINITION. The dispatch of 60_exceptions.md R140's last line: one arm per constructor of Instr. -/

namespace Sys2Proof.Machine

def exec (i : Instr) (s : State) : Host.Outcome State Fault Refusal :=
  match i with
  | .ldcal img => Sys2Proof.Machine.execLdcal img s
  | .ldraw img => Sys2Proof.Machine.execLdraw img s
  | .comp => Sys2Proof.Machine.execComp s
  | .invcal => Sys2Proof.Machine.execInvcal s

end Sys2Proof.Machine
end

