-- ==== Sys2Proof/Machine/Entry.lean ====
section
/-!
DEFINITION. What happens around a command's own rule: taking the host's next input, and the common entry step STEP of
60_exceptions.md R140.
-/

namespace Sys2Proof.Machine

/-- The fault a rejected command raises (60_exceptions.md R137; 30_encoding.md R71, R73). -/
def rejectCause : Reject → FaultCause
  | .illegalCommand => .illegalCommand
  | .badLength => .badLength

/-- STEP(op, payload) of 60_exceptions.md R140: the index moves on; a faulted engine ignores the command; an illegal
opcode, then a wrong length, is a fault; else the command's rule. -/
def stepCommand (c : Command) (s : State) : Host.Outcome State Fault Refusal :=
  let s := s.advance
  if s.fault then .next s
  else
    match decodeCommand c with
    | .error r => .next (s.takeFault (rejectCause r))
    | .ok i => exec i s

/-- The host's next input takes effect: a command goes through STEP; a reset gives the reset state
(70_reset_and_hazards.md R153); where the host has issued nothing, the engine holds its state (60_exceptions.md R152;
log entry 3). -/
def stepInput (s : State) : Host.Outcome State Fault Refusal :=
  match s.inputs with
  | [] => .next s
  | .reset :: _ => .next s.dropInput.hostReset
  | .command c :: _ => stepCommand c s.dropInput

/-- The state whose next host input is the command a table word spells, the inputs after it as before; unchanged where
the word's bytes spell none. -/
def placeTableWord (s : State) (nbits w : Nat) : State :=
  match tableCommand nbits w with
  | none => s
  | some c => { s with inputs := .command c :: s.inputs }

end Sys2Proof.Machine
end

