-- ==== Sys2Proof/Machine/Step.lean ====
section
/-!
DEFINITION. One step of the machine: the host's next input (20_memory.md R55). The engine fetches nothing
(10_state.md R36), so the next instruction is the next command the host has issued.
-/

namespace Sys2Proof.Machine

/-- One step: the next host input takes effect, indivisibly (30_encoding.md R61). -/
def step (s : State) : Host.Outcome State Fault Refusal := stepInput s

/-- The state whose very next step runs the instruction of a table word: the host issues it first (log entry 5). -/
def State.withFetchWord (s : State) (nbits w : Nat) : State := placeTableWord s nbits w

end Sys2Proof.Machine
end

