-- ==== Sys2Proof/Machine/Assembler.lean ====
section
/-!
DEFINITION. The assembler of BCE-CMD v1 (30_encoding.md R75 to R78): text to instructions, raw forms, field forms and
the pseudo-instructions OPEN, CLOSE and MEASURE. It answers `none` where R75 says the assembler refuses. The points of
the text that R75 leaves to its examples are in log entry 8.
-/

namespace Sys2Proof.Machine

/-- One operand of a line: a byte value, or a named field. -/
inductive AsmOperand where
  | value (v : Int)
  | field (name : List Char) (v : Int)
  deriving DecidableEq, Repr

/-- A space, a tab or a carriage return. -/
def isBlank (c : Char) : Bool := c = ' ' || c = '\t' || c = '\r'

/-- The text without blanks at its ends. -/
def trimBlanks (cs : List Char) : List Char := ((cs.dropWhile isBlank).reverse.dropWhile isBlank).reverse

/-- The pieces of a text between the occurrences of a character. -/
def splitAtChar (sep : Char) : List Char → List (List Char)
  | [] => [[]]
  | c :: cs =>
    match splitAtChar sep cs with
    | [] => [[c]]
    | p :: ps => if c = sep then [] :: p :: ps else (c :: p) :: ps

/-- The value of a digit in a base of at most 16. -/
def digitValue (c : Char) : Option Nat :=
  if '0' ≤ c ∧ c ≤ '9' then some (c.toNat - '0'.toNat)
  else if 'a' ≤ c ∧ c ≤ 'f' then some (c.toNat - 'a'.toNat + 10)
  else if 'A' ≤ c ∧ c ≤ 'F' then some (c.toNat - 'A'.toNat + 10)
  else none

/-- Digits of a base, onto the number read so far. -/
def digitsOnto (base : Nat) : Nat → List Char → Option Nat
  | acc, [] => some acc
  | acc, c :: cs =>
    match digitValue c with
    | none => none
    | some d => if d < base then digitsOnto base (base * acc + d) cs else none

/-- A number: decimal, or hexadecimal after 0x (R75); at least one digit. -/
def parseNat : List Char → Option Nat
  | '0' :: 'x' :: d :: ds => digitsOnto 16 0 (d :: ds)
  | d :: ds => digitsOnto 10 0 (d :: ds)
  | [] => none

/-- A number with an optional minus sign, as the field form of R75's example writes it. -/
def parseInt : List Char → Option Int
  | '-' :: cs => (parseNat cs).map fun n => -(n : Int)
  | cs => (parseNat cs).map fun n => (n : Int)

/-- One operand: `NAME=VALUE` or `VALUE`. -/
def parseOperand (cs : List Char) : Option AsmOperand :=
  match splitAtChar '=' cs with
  | [v] => (parseInt (trimBlanks v)).map .value
  | [n, v] => (parseInt (trimBlanks v)).map (.field (trimBlanks n))
  | _ => none

/-- The values of operands that are all plain byte values. -/
def plainValues : List AsmOperand → Option (List Int)
  | [] => some []
  | .value v :: os => (plainValues os).map (v :: ·)
  | .field _ _ :: _ => none

/-- The fields of operands that are all named fields. -/
def namedFields : List AsmOperand → Option (List (List Char × Int))
  | [] => some []
  | .field n v :: os => (namedFields os).map ((n, v) :: ·)
  | .value _ :: _ => none

/-- Bytes from values; refused where one lies outside 0..255 (R75). -/
def bytesOf : List Int → Option (List Byte)
  | [] => some []
  | v :: vs => if 0 ≤ v ∧ v ≤ 255 then (bytesOf vs).map (BitVec.ofInt 8 v :: ·) else none

/-- The raw form: exactly `n` bytes (R75). -/
def rawForm (n : Nat) (os : List AsmOperand) : Option (Vector Byte n) :=
  ((plainValues os).bind bytesOf).bind (imageOf n)

/-- The value of a field that is given exactly once. -/
def fieldOnce (name : String) (fs : List (List Char × Int)) : Option Int :=
  match fs.filter fun f => f.1 = name.toList with
  | [f] => some f.2
  | _ => none

/-- An unsigned field of `n` bits, refused outside its type (R75). -/
def fieldU (n : Nat) (name : String) (fs : List (List Char × Int)) : Option (BitVec n) :=
  (fieldOnce name fs).bind fun v => if 0 ≤ v ∧ v < 2 ^ n then some (wrap n v) else none

/-- A signed field of `n` bits, refused outside its type (R75). -/
def fieldS (n : Nat) (name : String) (fs : List (List Char × Int)) : Option (BitVec n) :=
  (fieldOnce name fs).bind fun v => if -(2 ^ (n - 1)) ≤ v ∧ v < 2 ^ (n - 1) then some (wrap n v) else none

/-- The field form of LDCAL: all 18 fields, any order, each once (R75). -/
def calFields (fs : List (List Char × Int)) : Option Cal := do
  if fs.length = 18 then
    let t1 ← fieldU 16 "T1" fs
    let t2 ← fieldS 16 "T2" fs
    let t3 ← fieldS 16 "T3" fs
    let p1 ← fieldU 16 "P1" fs
    let p2 ← fieldS 16 "P2" fs
    let p3 ← fieldS 16 "P3" fs
    let p4 ← fieldS 16 "P4" fs
    let p5 ← fieldS 16 "P5" fs
    let p6 ← fieldS 16 "P6" fs
    let p7 ← fieldS 16 "P7" fs
    let p8 ← fieldS 16 "P8" fs
    let p9 ← fieldS 16 "P9" fs
    let h1 ← fieldU 8 "H1" fs
    let h2 ← fieldS 16 "H2" fs
    let h3 ← fieldU 8 "H3" fs
    let h4 ← fieldS 12 "H4" fs
    let h5 ← fieldS 12 "H5" fs
    let h6 ← fieldS 8 "H6" fs
    some
      { dig_T1 := t1, dig_T2 := t2, dig_T3 := t3, dig_P1 := p1, dig_P2 := p2, dig_P3 := p3, dig_P4 := p4,
        dig_P5 := p5, dig_P6 := p6, dig_P7 := p7, dig_P8 := p8, dig_P9 := p9, dig_H1 := h1, dig_H2 := h2,
        dig_H3 := h3, dig_H4 := h4, dig_H5 := h5, dig_H6 := h6 }
  else none

/-- The field form of LDRAW: the three fields, any order, each once (R75). -/
def rawFields (fs : List (List Char × Int)) : Option Raw := do
  if fs.length = 3 then
    let p ← fieldU 20 "P" fs
    let t ← fieldU 20 "T" fs
    let h ← fieldU 16 "H" fs
    some { adc_P := p, adc_T := t, adc_H := h }
  else none

/-- The payload of LDCAL and OPEN, raw form or field form (R75, R76). -/
def calOperands (os : List AsmOperand) : Option (Vector Byte 32) :=
  match namedFields os with
  | some fs => (calFields fs).map encodeCal
  | none => rawForm 32 os

/-- The payload of LDRAW and MEASURE, raw form or field form (R75, R76). -/
def rawOperands (order : AdcHOrder) (os : List AsmOperand) : Option (Vector Byte 8) :=
  match namedFields os with
  | some fs => (rawFields fs).map (encodeRaw order)
  | none => rawForm 8 os

/-- One line's mnemonic and operands as instructions; the pseudo-instructions expand (R75, R77). -/
def assembleLine (order : AdcHOrder) (mnemonic : List Char) (os : List AsmOperand) : Option (List Instr) :=
  if mnemonic = "LDCAL".toList then (calOperands os).map fun img => [.ldcal img]
  else if mnemonic = "LDRAW".toList then (rawOperands order os).map fun img => [.ldraw img]
  else if mnemonic = "COMP".toList then if os = [] then some [.comp] else none
  else if mnemonic = "INVCAL".toList then if os = [] then some [.invcal] else none
  else if mnemonic = "OPEN".toList then (calOperands os).map fun img => [.ldcal img]
  else if mnemonic = "CLOSE".toList then if os = [] then some [.invcal] else none
  else if mnemonic = "MEASURE".toList then (rawOperands order os).map fun img => [.ldraw img, .comp]
  else none

/-- The operands of a line: nothing, or operands separated by commas (R75). -/
def parseOperands (cs : List Char) : Option (List AsmOperand) :=
  match trimBlanks cs with
  | [] => some []
  | text => (splitAtChar ',' text).mapM parseOperand

/-- One line without its comment, as instructions. -/
def assembleText (order : AdcHOrder) (line : List Char) : Option (List Instr) :=
  match parseOperands (line.dropWhile fun c => !isBlank c) with
  | none => none
  | some os => assembleLine order (line.takeWhile fun c => !isBlank c) os

/-- The lines of a program: comments from `;` on and blank lines dropped, and a line that ends in a comma joined with
the next, as R75's own example is written. -/
def joinLines : List Char → List (List Char) → List (List Char)
  | held, [] => if held = [] then [] else [held]
  | held, line :: lines =>
    let text := held ++ trimBlanks (line.takeWhile (· ≠ ';'))
    if text = [] then joinLines [] lines
    else if text.getLast? = some ',' then joinLines text lines
    else text :: joinLines [] lines

/-- The instructions of a program's text (R75 to R78); `none` where a line is refused. -/
def assemble (order : AdcHOrder) (text : List Char) : Option (List Instr) :=
  ((joinLines [] (splitAtChar '\n' text)).mapM (assembleText order)).map List.flatten

end Sys2Proof.Machine
end

