-- ==== Sys2Proof/Machine/HostSide.lean ====
section
/-!
DEFINITION. The host's side of the interface, for claims about a host that keeps its duties: where each image byte
comes from in the sensor (20_memory.md R46 to R48), and the commands such a host issues (70_reset_and_hazards.md R157,
R158, R167; 30_encoding.md R77). The engine sees none of this; a host in breach issues commands like any other (R158;
DESIGN CHOICE, safe: log entry 11).
A sensor's register contents are a function of the register address, passed as an argument.
-/

namespace Sys2Proof.Machine

/-- The sensor register a calibration image byte is copied from (20_memory.md R46). -/
def calRegister (i : Fin 32) : Byte :=
  if i.val < 24 then 0x88#8 + BitVec.ofNat 8 i.val
  else if i.val = 24 then 0xA1#8
  else 0xE1#8 + BitVec.ofNat 8 (i.val - 25)

/-- The sensor register a measurement image byte is copied from (20_memory.md R47). -/
def rawRegister (i : Fin 8) : Byte := 0xF7#8 + BitVec.ofNat 8 i.val

/-- The chip-identification register and the value it must read as (20_memory.md R48, 70_reset_and_hazards.md R158). -/
def chipIdRegister : Byte := 0xD0#8

/-- See `chipIdRegister`. -/
def chipIdValue : Byte := 0x60#8

/-- The calibration image of a sensor: the three reads concatenated (20_memory.md R46). -/
def calImageOf (sensor : Byte → Byte) : Vector Byte 32 := Vector.ofFn fun i => sensor (calRegister i)

/-- The measurement image of a sensor: all 8 bytes from one snapshot of its registers (70_reset_and_hazards.md R167). -/
def rawImageOf (sensor : Byte → Byte) : Vector Byte 8 := Vector.ofFn fun i => sensor (rawRegister i)

/-- OPEN by a host that keeps the chip-identity duty: LDCAL, or nothing where register 0xD0 does not read 0x60
(30_encoding.md R77, 70_reset_and_hazards.md R158). -/
def hostOpen (sensor : Byte → Byte) : List Command :=
  if sensor chipIdRegister = chipIdValue then [encodeCommand (.ldcal (calImageOf sensor))] else []

/-- MEASURE: LDRAW with the present measurement image, then COMP (30_encoding.md R77). -/
def hostMeasure (sensor : Byte → Byte) : List Command :=
  [encodeCommand (.ldraw (rawImageOf sensor)), encodeCommand .comp]

/-- CLOSE: INVCAL (30_encoding.md R77). -/
def hostClose : List Command := [encodeCommand .invcal]

end Sys2Proof.Machine
end

