-- ==== Sys2Proof/Machine/Registers.lean ====
section
/-!
DEFINITION. Host reads (10_state.md R41): the host may read any register of R20 between commands, without effect, and
gets its content, or no value where the register holds none (R39).
-/

namespace Sys2Proof.Machine

/-- The registers the host can read (10_state.md R20, R22, R25, R27 to R29, R31, R35). -/
inductive Register where
  | dig_T1 | dig_T2 | dig_T3
  | dig_P1 | dig_P2 | dig_P3 | dig_P4 | dig_P5 | dig_P6 | dig_P7 | dig_P8 | dig_P9
  | dig_H1 | dig_H2 | dig_H3 | dig_H4 | dig_H5 | dig_H6
  | adc_P | adc_T | adc_H
  | tfine | t_int | p_int | h_int | t_f32 | p_f32 | h_f32
  | status | faultCause
  deriving DecidableEq, Repr

/-- The bits a register holds (10_state.md R22, R25, R27 to R29, R31, R35). -/
def Register.width : Register → Nat
  | .dig_T1 | .dig_T2 | .dig_T3 => 16
  | .dig_P1 | .dig_P2 | .dig_P3 | .dig_P4 | .dig_P5 | .dig_P6 | .dig_P7 | .dig_P8 | .dig_P9 => 16
  | .dig_H1 => 8
  | .dig_H2 => 16
  | .dig_H3 => 8
  | .dig_H4 | .dig_H5 => 12
  | .dig_H6 => 8
  | .adc_P | .adc_T => 20
  | .adc_H => 16
  | .tfine | .t_int => 32
  | .p_int => 64
  | .h_int | .t_f32 | .p_f32 | .h_f32 => 32
  | .status | .faultCause => 8

/-- A host read: the register's present content, or no value (10_state.md R39, R41). -/
def State.hostRead (s : State) : (r : Register) → Option (BitVec r.width)
  | .dig_T1 => s.cal.map Cal.dig_T1
  | .dig_T2 => s.cal.map Cal.dig_T2
  | .dig_T3 => s.cal.map Cal.dig_T3
  | .dig_P1 => s.cal.map Cal.dig_P1
  | .dig_P2 => s.cal.map Cal.dig_P2
  | .dig_P3 => s.cal.map Cal.dig_P3
  | .dig_P4 => s.cal.map Cal.dig_P4
  | .dig_P5 => s.cal.map Cal.dig_P5
  | .dig_P6 => s.cal.map Cal.dig_P6
  | .dig_P7 => s.cal.map Cal.dig_P7
  | .dig_P8 => s.cal.map Cal.dig_P8
  | .dig_P9 => s.cal.map Cal.dig_P9
  | .dig_H1 => s.cal.map Cal.dig_H1
  | .dig_H2 => s.cal.map Cal.dig_H2
  | .dig_H3 => s.cal.map Cal.dig_H3
  | .dig_H4 => s.cal.map Cal.dig_H4
  | .dig_H5 => s.cal.map Cal.dig_H5
  | .dig_H6 => s.cal.map Cal.dig_H6
  | .adc_P => s.raw.map Raw.adc_P
  | .adc_T => s.raw.map Raw.adc_T
  | .adc_H => s.raw.map Raw.adc_H
  | .tfine => s.tfine
  | .t_int => s.res.map Res.t_int
  | .p_int => s.res.map Res.p_int
  | .h_int => s.res.map Res.h_int
  | .t_f32 => s.res.map Res.t_f32
  | .p_f32 => s.res.map Res.p_f32
  | .h_f32 => s.res.map Res.h_f32
  | .status => some s.status
  | .faultCause => some s.faultCause

/-- The 18 calibration registers (10_state.md R22). -/
def Register.inCal : Register → Bool
  | .dig_T1 | .dig_T2 | .dig_T3 | .dig_P1 | .dig_P2 | .dig_P3 | .dig_P4 | .dig_P5 | .dig_P6 | .dig_P7 | .dig_P8
  | .dig_P9 | .dig_H1 | .dig_H2 | .dig_H3 | .dig_H4 | .dig_H5 | .dig_H6 => true
  | .adc_P | .adc_T | .adc_H | .tfine | .t_int | .p_int | .h_int | .t_f32 | .p_f32 | .h_f32 | .status
  | .faultCause => false

/-- The three raw registers (10_state.md R25). -/
def Register.inRaw : Register → Bool
  | .adc_P | .adc_T | .adc_H => true
  | .dig_T1 | .dig_T2 | .dig_T3 | .dig_P1 | .dig_P2 | .dig_P3 | .dig_P4 | .dig_P5 | .dig_P6 | .dig_P7 | .dig_P8
  | .dig_P9 | .dig_H1 | .dig_H2 | .dig_H3 | .dig_H4 | .dig_H5 | .dig_H6 | .tfine | .t_int | .p_int | .h_int | .t_f32
  | .p_f32 | .h_f32 | .status | .faultCause => false

/-- TFINE and the six result registers (10_state.md R27 to R29). -/
def Register.inResults : Register → Bool
  | .tfine | .t_int | .p_int | .h_int | .t_f32 | .p_f32 | .h_f32 => true
  | .dig_T1 | .dig_T2 | .dig_T3 | .dig_P1 | .dig_P2 | .dig_P3 | .dig_P4 | .dig_P5 | .dig_P6 | .dig_P7 | .dig_P8
  | .dig_P9 | .dig_H1 | .dig_H2 | .dig_H3 | .dig_H4 | .dig_H5 | .dig_H6 | .adc_P | .adc_T | .adc_H | .status
  | .faultCause => false

end Sys2Proof.Machine
end

