-- ==== Sys2Proof/Safety.lean ====
section
/-!
DEFINITION. What counts as a safe run, in the terms claims use (70_reset_and_hazards.md R170), and the properties every
step keeps (10_state.md R30, R42, R43; 60_exceptions.md R137).
-/

namespace Sys2Proof.Machine

/-- "A run is clean when FAULT = 0 in the end state" (70_reset_and_hazards.md R170). -/
abbrev State.Clean (s : State) : Prop := s.fault = false

/-- "Its results are meaningful when, in addition, RESULT_VALID = 1" (70_reset_and_hazards.md R170, R161). -/
abbrev State.Meaningful (s : State) : Prop := s.Clean ∧ s.resultValid = true

/-- The host has issued its last command and the engine has taken it (70_reset_and_hazards.md R170, end of a run). -/
abbrev State.Ended (s : State) : Prop := s.inputs = []

/-- 10_state.md R42 (c), (d), (e); (a), (b) and (f) are in the form of the state. -/
abbrev State.Kept (s : State) : Prop :=
  (s.resultValid = true → s.calValid = true ∧ s.rawValid = true)
    ∧ (s.tfine.isSome = s.res.isSome)
    ∧ ¬(s.hClampLo = true ∧ s.hClampHi = true)

/-- 60_exceptions.md R137: FAULT_CAUSE holds 0 or one of the four codes. -/
abbrev State.CauseCoded (s : State) : Prop := s.faultCause.toNat ≤ 4

/-- 10_state.md R43: the ranges of TFINE, T_INT and H_INT where they hold a value. -/
abbrev State.InRange (s : State) : Prop :=
  (s.tfine.all fun tf => decide (-1179648 ≤ tf.toInt ∧ tf.toInt ≤ 1179646)) = true
    ∧ (s.res.all fun r => decide (-23040 ≤ r.t_int.toInt ∧ r.t_int.toInt ≤ 23040 ∧ r.h_int.toNat ≤ 102400)) = true

/-- What RESULT_VALID = 1 means (10_state.md R30): the result registers, TFINE and STATUS bits 3 to 5 "were computed
from the present contents of the calibration and raw files". -/
def State.Current (s : State) : Prop :=
  s.resultValid = true → ∃ c r, s.cal = some c ∧ s.raw = some r ∧
    s.tfine = some (compensate s.params.pF32Mode c r).tfine ∧
    s.res = some (compensate s.params.pF32Mode c r).res ∧
    s.pDenomZero = (compensate s.params.pF32Mode c r).pDenomZero ∧
    s.hClampLo = (compensate s.params.pF32Mode c r).hClampLo ∧
    s.hClampHi = (compensate s.params.pF32Mode c r).hClampHi

end Sys2Proof.Machine
end

