-- ==== Sys2Proof/Certificates/Slice0/Obligations.lean ====
section
/-!
DEFINITION. The statements for the provers. Each docstring names the rule of spec/ it formalises; where a statement
rests on an inference the spec marks as its own ([derived: ...]) or on a choice of the model (a log entry), it says so.
-/

open Sys2Proof Sys2Proof.Machine

/-! ## Encoding and decoding (30_encoding.md) -/

/-- 30_encoding.md sections 1 and 3 (R61, R63 to R66, R72): bytes decode to an instruction exactly when they begin with
that instruction's bytes, and what is left is what follows its last payload byte. So no bit of an encoding is dropped,
and no other bytes have the instruction's meaning. -/
def Obligations.BytesDecodeExactlyToTheirInstruction : Prop :=
  ∀ (bytes rest : List Byte) (i : Instr), decode bytes = some (.ok i, rest) ↔ bytes = encode i ++ rest

/-- 30_encoding.md R62: the check itself; a pair that passes it is exactly one instruction, and a pair that fails it is
none: an unfaulted engine that takes such a pair faults with ILLEGAL_COMMAND (1) or BAD_LENGTH (2) and does nothing
else. -/
def Obligations.WellFormedPairsAreTheInstructions : Prop :=
  ∀ c : Command,
    (c.wellFormed = true ↔
      (c.opcode.toNat = 1 ∧ c.payload.length = 32 ∨ c.opcode.toNat = 2 ∧ c.payload.length = 8
        ∨ c.opcode.toNat = 3 ∧ c.payload.length = 0 ∨ c.opcode.toNat = 4 ∧ c.payload.length = 0))
    ∧ (c.wellFormed = true → ∃ i, decodeCommand c = .ok i ∧ encodeCommand i = c)
    ∧ (c.wellFormed = false →
      (∃ r, decodeCommand c = .error r) ∧
      ∀ (s : State) (rest : List HostInput), s.faultCause = 0#8 → s.inputs = .command c :: rest →
        step s = .next
          { s with
            inputs := rest
            idx := s.idx + 1
            faultCause := if c.opcode.toNat = 0 ∨ 5 ≤ c.opcode.toNat then 0x01#8 else 0x02#8 })

/-- 30_encoding.md R70, R71, R73: which pairs are rejected, and as what, in terms of the opcode's value and the
payload's length. -/
def Obligations.RejectionGoesByOpcodeThenLength : Prop :=
  ∀ c : Command,
    (decodeCommand c = .error .illegalCommand ↔ c.opcode.toNat = 0 ∨ 5 ≤ c.opcode.toNat)
    ∧ (decodeCommand c = .error .badLength ↔
        (c.opcode.toNat = 1 ∧ c.payload.length ≠ 32) ∨ (c.opcode.toNat = 2 ∧ c.payload.length ≠ 8)
          ∨ (c.opcode.toNat = 3 ∧ c.payload.length ≠ 0) ∨ (c.opcode.toNat = 4 ∧ c.payload.length ≠ 0))

/-- The words the spec writes out decode to the instructions they stand for: R65, R66 and R78 (`03 04`), R79 (LDRAW)
and R80 (LDCAL). -/
def Obligations.SpecWordsDecode : Prop :=
  commandsOf [0x03, 0x04] = [encodeCommand .comp, encodeCommand .invcal]
    ∧ (∀ rest, decode ([0x02, 0x65, 0x5A, 0xC0, 0x7E, 0xED, 0x00, 0x75, 0x30] ++ rest)
        = some (.ok (.ldraw #v[0x65, 0x5A, 0xC0, 0x7E, 0xED, 0x00, 0x75, 0x30]), rest))
    ∧ (∀ rest, decode ([0x01, 0x70, 0x6B, 0x43, 0x67, 0x18, 0xFC, 0x7D, 0x8E, 0x43, 0xD6, 0xD0, 0x0B, 0x27, 0x0B, 0x8C,
          0x00, 0xF9, 0xFF, 0x8C, 0x3C, 0xF8, 0xC6, 0x70, 0x17, 0x4B, 0x6A, 0x01, 0x00, 0x13, 0x29, 0x03, 0x1E] ++ rest)
        = some (.ok (.ldcal #v[0x70, 0x6B, 0x43, 0x67, 0x18, 0xFC, 0x7D, 0x8E, 0x43, 0xD6, 0xD0, 0x0B, 0x27, 0x0B, 0x8C,
          0x00, 0xF9, 0xFF, 0x8C, 0x3C, 0xF8, 0xC6, 0x70, 0x17, 0x4B, 0x6A, 0x01, 0x00, 0x13, 0x29, 0x03, 0x1E]), rest))

/-- 30_encoding.md R76, last sentence (which the spec marks [derived]), for LDCAL: the field form's payload decodes to
exactly its 18 fields, at every value of every field. -/
def Obligations.CalFieldFormDecodesBack : Prop :=
  ∀ c : Cal, decodeCal (encodeCal c) = c

/-- 30_encoding.md R76, last sentence (which the spec marks [derived]), for LDRAW, in both byte orders. -/
def Obligations.RawFieldFormDecodesBack : Prop :=
  ∀ (order : AdcHOrder) (r : Raw), decodeRaw order (encodeRaw order r) = r

/-- 30_encoding.md R72 and R78: a program's byte stream splits back into the program's commands, in order. -/
def Obligations.ProgramStreamSplitsBack : Prop :=
  ∀ prog : List Instr, commandsOf (encodeProgram prog) = prog.map encodeCommand

/-- 30_encoding.md R77: OPEN, CLOSE and MEASURE are the commands of their expansions, for any operands, and are
refused exactly where those are. -/
def Obligations.PseudoInstructionsExpand : Prop :=
  ∀ (order : AdcHOrder) (os : List AsmOperand),
    assembleLine order "OPEN".toList os = assembleLine order "LDCAL".toList os
    ∧ assembleLine order "CLOSE".toList os = assembleLine order "INVCAL".toList os
    ∧ assembleLine order "MEASURE".toList os
        = (assembleLine order "LDRAW".toList os).map (fun is => is ++ [.comp])

/-- 20_memory.md R46 and R47: which sensor register each image byte is copied from; 0xA0 is none of them (R46, which
marks this [derived]). -/
def Obligations.ImageBytesComeFromTheirRegisters : Prop :=
  (∀ i : Fin 32, (calRegister i).toNat
      = if i.val ≤ 23 then 0x88 + i.val else if i.val = 24 then 0xA1 else 0xE1 + (i.val - 25))
    ∧ (∀ i : Fin 8, (rawRegister i).toNat = 0xF7 + i.val)
    ∧ (∀ i j : Fin 32, calRegister i = calRegister j → i = j)
    ∧ (∀ i : Fin 32, calRegister i ≠ 0xA0#8)

/-! ## Operand assembly (40_load.md) -/

/-- 40_load.md R81, R82: the values of the two 16-bit decoders, for every pair of bytes. -/
def Obligations.SixteenBitDecoderValues : Prop :=
  ∀ lo hi : Byte,
    (unsigned16 lo hi).toNat = lo.toNat + 256 * hi.toNat
    ∧ (signed16 lo hi).toInt = lo.toNat + 256 * hi.toInt
    ∧ signed16 lo hi = BitVec.ofNat 16 (hi.toNat * 256 + lo.toNat)

/-- 40_load.md R84: the values of the two packed 12-bit coefficients, for every triple of bytes; the sign is the top
bit of b3 for dig_H4 and of b5 for dig_H5, and the nibbles of b4 are unsigned. -/
def Obligations.PackedTwelveBitValues : Prop :=
  ∀ b3 b4 b5 : Byte,
    (packH4 b3 b4).toInt = b3.toInt * 16 + (b4.toNat % 16 : Nat)
    ∧ (packH5 b5 b4).toInt = b5.toInt * 16 + (b4.toNat / 16 : Nat)

/-! ## Integer and binary32 primitives (00_scope.md) -/

/-- 00_scope.md R12: `wrapN(x)` is the unique integer in sN congruent to `x` modulo 2^N, and addition, subtraction and
multiplication are the exact results wrapped. Its last sentence (marked [derived]) is the last clause here. -/
def Obligations.ArithmeticWrapsAsTwosComplement : Prop :=
  ∀ (n : Nat), 0 < n →
    (∀ z : Int,
      (-(2 ^ (n - 1)) ≤ (wrap n z).toInt ∧ (wrap n z).toInt < 2 ^ (n - 1) ∧ ((wrap n z).toInt - z) % 2 ^ n = 0)
      ∧ ∀ y : Int, -(2 ^ (n - 1)) ≤ y → y < 2 ^ (n - 1) → (y - z) % 2 ^ n = 0 → y = (wrap n z).toInt)
    ∧ (∀ x y : BitVec n,
        addW x y = wrap n (x.toInt + y.toInt) ∧ subW x y = wrap n (x.toInt - y.toInt)
        ∧ mulW x y = wrap n (x.toInt * y.toInt))
    ∧ (∀ x y z : BitVec n,
        addW (addW x y) z = addW x (addW y z) ∧ mulW (mulW x y) z = mulW x (mulW y z)
        ∧ mulW x (addW y z) = addW (mulW x y) (mulW x z))

/-- 00_scope.md R13, R14: the right shift is the floor of the division, the left shift wraps `x · 2^k`, and the
division rounds toward zero, with -2^63 / -1 = -2^63 as its only case that leaves s64. -/
def Obligations.ShiftsFloorAndDivisionTruncates : Prop :=
  (∀ (n : Nat), n = 32 ∨ n = 64 → ∀ (x : BitVec n) (k : Nat), k < n →
      (2 ^ k * (asr x k).toInt ≤ x.toInt ∧ x.toInt < 2 ^ k * ((asr x k).toInt + 1))
      ∧ shlW x k = wrap n (x.toInt * 2 ^ k) ∧ shlW x k = x <<< k)
    ∧ (asr (wrap 32 (-1)) 4).toInt = -1 ∧ (asr (wrap 32 (-272)) 8).toInt = -2
    ∧ (∀ a b : S64, b.toInt ≠ 0 → ¬(a.toInt = -2 ^ 63 ∧ b.toInt = -1) →
        (quot64 a b).toInt.natAbs = a.toInt.natAbs / b.toInt.natAbs
        ∧ ((quot64 a b).toInt ≠ 0 → ((quot64 a b).toInt < 0 ↔ ¬(a.toInt < 0 ↔ b.toInt < 0))))
    ∧ (∀ a b : S64, a.toInt = -2 ^ 63 → b.toInt = -1 → (quot64 a b).toInt = -2 ^ 63)

/-- 00_scope.md section 5 (R16): `RNE32(n / d)` is a finite binary32 value nearest to the rational, and where another
finite value is as near, its significand is even; for every rational below the overflow threshold 2^128 - 2^103, which
every operand of the engine is. Distances are compared in units of 2^-149 / d. -/
def Obligations.RoundingIsNearestTiesToEven : Prop :=
  ∀ (n : Int) (d : Nat), 0 < d → n.natAbs < (2 ^ 128 - 2 ^ 103) * d →
    f32Finite (rne32 n d) = true
    ∧ ∀ b : F32, f32Finite b = true →
      (f32Num (rne32 n d) * d - n * 2 ^ 149).natAbs ≤ (f32Num b * d - n * 2 ^ 149).natAbs
      ∧ ((f32Num (rne32 n d) * d - n * 2 ^ 149).natAbs = (f32Num b * d - n * 2 ^ 149).natAbs →
          f32Num b = f32Num (rne32 n d) ∨ (rne32 n d).getLsbD 0 = false)

/-! ## LDCAL, LDRAW, INVCAL (40_load.md) -/

/-- 40_load.md R86, R87: LDCAL on an engine with CAL_VALID = 0 loads all 18 registers at once with the values the image
spells, sets CAL_VALID, clears RESULT_VALID and changes nothing else; with CAL_VALID = 1 it changes nothing at all. For
every image. -/
def Obligations.LdcalLoadsOrDoesNothing : Prop :=
  ∀ (img : Vector Byte 32) (s : State),
    (s.cal = none → ∃ c : Cal,
      exec (.ldcal img) s = .next { s with cal := some c, resultValid := false }
      ∧ c.dig_T1.toNat = img[0].toNat + 256 * img[1].toNat
      ∧ c.dig_T2.toInt = img[2].toNat + 256 * img[3].toInt
      ∧ c.dig_T3.toInt = img[4].toNat + 256 * img[5].toInt
      ∧ c.dig_P1.toNat = img[6].toNat + 256 * img[7].toNat
      ∧ c.dig_P2.toInt = img[8].toNat + 256 * img[9].toInt
      ∧ c.dig_P3.toInt = img[10].toNat + 256 * img[11].toInt
      ∧ c.dig_P4.toInt = img[12].toNat + 256 * img[13].toInt
      ∧ c.dig_P5.toInt = img[14].toNat + 256 * img[15].toInt
      ∧ c.dig_P6.toInt = img[16].toNat + 256 * img[17].toInt
      ∧ c.dig_P7.toInt = img[18].toNat + 256 * img[19].toInt
      ∧ c.dig_P8.toInt = img[20].toNat + 256 * img[21].toInt
      ∧ c.dig_P9.toInt = img[22].toNat + 256 * img[23].toInt
      ∧ c.dig_H1.toNat = img[24].toNat
      ∧ c.dig_H2.toInt = img[25].toNat + 256 * img[26].toInt
      ∧ c.dig_H3.toNat = img[27].toNat
      ∧ c.dig_H4.toInt = img[28].toInt * 16 + (img[29].toNat % 16 : Nat)
      ∧ c.dig_H5.toInt = img[30].toInt * 16 + (img[29].toNat / 16 : Nat)
      ∧ c.dig_H6.toInt = img[31].toInt)
    ∧ (s.cal ≠ none → exec (.ldcal img) s = .next s)

/-- 40_load.md R92, R93: LDRAW loads all three registers at once, sets RAW_VALID, clears RESULT_VALID and changes nothing
else, whatever CAL_VALID is; the humidity bytes are read in the order ADC_H_ORDER gives. For every image. -/
def Obligations.LdrawLoadsTheSample : Prop :=
  ∀ (img : Vector Byte 8) (s : State), ∃ r : Raw,
    exec (.ldraw img) s = .next { s with raw := some r, resultValid := false }
    ∧ r.adc_P.toNat = (65536 * img[0].toNat + 256 * img[1].toNat + img[2].toNat) / 16
    ∧ r.adc_T.toNat = (65536 * img[3].toNat + 256 * img[4].toNat + img[5].toNat) / 16
    ∧ (s.params.adcHOrder = .be → r.adc_H.toNat = 256 * img[6].toNat + img[7].toNat)
    ∧ (s.params.adcHOrder = .le → r.adc_H.toNat = img[6].toNat + 256 * img[7].toNat)

/-- 40_load.md R95, R96: INVCAL empties the calibration file, clears RESULT_VALID and changes nothing else; with
CAL_VALID = 0 already it changes nothing at all. -/
def Obligations.InvcalEmptiesOrDoesNothing : Prop :=
  ∀ s : State,
    (s.cal ≠ none → exec .invcal s = .next { s with cal := none, resultValid := false })
    ∧ (s.cal = none → exec .invcal s = .next s)

/-- The frame of the load family (40_load.md sections 2 to 4, R88, R93, R95): LDCAL, LDRAW and INVCAL leave every
register they do not write as it was, read as the host reads it, and never touch FAULT_CAUSE, the condition flags, the
index or the parameters. -/
def Obligations.LoadFamilyFrame : Prop :=
  ∀ (i : Instr) (s t : State), i ≠ .comp → exec i s = .next t →
    (∀ r : Register, r ≠ .status → r.inCal = false → r.inRaw = false → t.hostRead r = s.hostRead r)
    ∧ ((∀ img, i ≠ .ldraw img) → ∀ r : Register, r.inRaw = true → t.hostRead r = s.hostRead r)
    ∧ ((∃ img, i = .ldraw img) → ∀ r : Register, r.inCal = true → t.hostRead r = s.hostRead r)
    ∧ t.pDenomZero = s.pDenomZero ∧ t.hClampLo = s.hClampLo ∧ t.hClampHi = s.hClampHi
    ∧ t.faultCause = s.faultCause ∧ t.idx = s.idx ∧ t.inputs = s.inputs ∧ t.params = s.params

/-! ## COMP (41_compensate.md) -/

/-- 41_compensate.md R101: COMP's preconditions in their order; a COMP that fails one records the cause and changes
nothing else. -/
def Obligations.CompFaultsOnItsPreconditions : Prop :=
  ∀ s : State,
    (s.cal = none → exec .comp s = .next { s with faultCause := 0x03#8 })
    ∧ (s.cal ≠ none → s.raw = none → exec .comp s = .next { s with faultCause := 0x04#8 })

/-- 41_compensate.md R102, R126, R127: COMP faults where a file is empty, and a COMP with both files loaded completes:
it writes TFINE, the six results, the three condition flags and RESULT_VALID, all at once, and nothing else. The pressure
and humidity stages take this COMP's own t_fine. What the stages compute is stated below. -/
def Obligations.CompWritesItsResults : Prop :=
  (∀ s : State, s.cal = none → exec .comp s = .next { s with faultCause := 0x03#8 })
  ∧ (∀ s : State, s.cal ≠ none → s.raw = none → exec .comp s = .next { s with faultCause := 0x04#8 })
  ∧ ∀ (s : State) (c : Cal) (r : Raw), s.cal = some c → s.raw = some r →
    exec .comp s = .next
      { s with
        tfine := some (tempFine r.adc_T c)
        res := some
          { t_int := tempInt (tempFine r.adc_T c)
            p_int := presInt r.adc_P (tempFine r.adc_T c) c
            h_int := humInt (humUnclamped r.adc_H (tempFine r.adc_T c) c)
            t_f32 := cvtT (tempInt (tempFine r.adc_T c))
            p_f32 := cvtP s.params.pF32Mode (presInt r.adc_P (tempFine r.adc_T c) c)
            h_f32 := cvtH (humInt (humUnclamped r.adc_H (tempFine r.adc_T c) c)) }
        resultValid := true
        pDenomZero := decide ((presVarP1 (tempFine r.adc_T c) c).toInt = 0)
        hClampLo := decide ((humUnclamped r.adc_H (tempFine r.adc_T c) c).toInt < 0)
        hClampHi := decide (419430400 < (humUnclamped r.adc_H (tempFine r.adc_T c) c).toInt) }

/-- 41_compensate.md R104: the temperature stage over the integers, with `Int.bmod z (2 ^ 32)` for the wrap. The
shifted and subtracted inputs `a`, `b` and `d` are far inside s32, so they stand without it. -/
def Obligations.TemperatureStageFormula : Prop :=
  ∀ (adcT : BitVec 20) (c : Cal),
    let w : Int → Int := fun z => z.bmod (2 ^ 32)
    let a : Int := (adcT.toNat : Int) / 2 ^ 3
    let b : Int := c.dig_T1.toNat * 2
    let var1 := w ((a - b) * c.dig_T2.toInt) / 2 ^ 11
    let d : Int := (adcT.toNat : Int) / 2 ^ 4 - c.dig_T1.toNat
    let var2 := w (w (d * d) / 2 ^ 12 * c.dig_T3.toInt) / 2 ^ 14
    let tf := w (var1 + var2)
    (tempVar1 adcT c).toInt = var1 ∧ (tempVar2 adcT c).toInt = var2 ∧ (tempFine adcT c).toInt = tf
    ∧ (tempInt (tempFine adcT c)).toInt = w (w (tf * 5) + 128) / 2 ^ 8

/-- 10_state.md section 8 (R43) and 41_compensate.md section 2 (R105 (d), R107), all marked [derived]: the ranges of
TFINE and T_INT, and that neither the last sum nor the rounding of T_INT wraps, for every reading and every coefficient
set. -/
def Obligations.TemperatureRanges : Prop :=
  ∀ (adcT : BitVec 20) (c : Cal),
    -1179648 ≤ (tempFine adcT c).toInt ∧ (tempFine adcT c).toInt ≤ 1179646
    ∧ -23040 ≤ (tempInt (tempFine adcT c)).toInt ∧ (tempInt (tempFine adcT c)).toInt ≤ 23040
    ∧ (tempFine adcT c).toInt = (tempVar1 adcT c).toInt + (tempVar2 adcT c).toInt
    ∧ (tempInt (tempFine adcT c)).toInt = (5 * (tempFine adcT c).toInt + 128) / 256

/-- 41_compensate.md R111, R112, R115, R116 with the seed of R110 and the division of R114: the pressure stage over
the integers, with `Int.bmod z (2 ^ 64)` for the wrap and `Int.tdiv` for the division toward zero. -/
def Obligations.PressureStageFormula : Prop :=
  ∀ (adcP : BitVec 20) (tf : S32) (c : Cal),
    let w : Int → Int := fun z => z.bmod (2 ^ 64)
    let v1 := tf.toInt - 128000
    let varP2 := w (v1 * v1 * c.dig_P6.toInt + v1 * c.dig_P5.toInt * 2 ^ 17 + c.dig_P4.toInt * 2 ^ 35)
    let varP1 := w ((2 ^ 47 + w (v1 * v1 * c.dig_P3.toInt) / 2 ^ 8 + v1 * c.dig_P2.toInt * 2 ^ 12) * c.dig_P1.toNat)
      / 2 ^ 33
    let num := w (((1048576 - adcP.toNat) * 2 ^ 31 - varP2) * 3125)
    let p := w (num.tdiv varP1)
    let u1 := w (c.dig_P9.toInt * (p / 2 ^ 13) * (p / 2 ^ 13)) / 2 ^ 25
    let u2 := w (c.dig_P8.toInt * p) / 2 ^ 19
    (presVarP2 tf c).toInt = varP2 ∧ (presVarP1 tf c).toInt = varP1 ∧ (presNumerator adcP tf c).toInt = num
    ∧ (presInt adcP tf c).toInt
        = if varP1 = 0 then 0 else w (w (p + u1 + u2) / 2 ^ 8 + c.dig_P7.toInt * 2 ^ 4)

/-- 41_compensate.md section 3 (R113, whose last sentences are marked [derived]): where varP1 is 0, COMP completes with
P_INT = 0, P_F32 = +0.0 in every mode and P_DENOM_ZERO = 1; varP1 is 0 exactly when the wrapped product lies in
[0, 2^33 - 1], and dig_P1 = 0 forces it. -/
def Obligations.ZeroDenominatorGivesZeroPressure : Prop :=
  (∀ (s : State) (c : Cal) (r : Raw), s.cal = some c → s.raw = some r →
    presVarP1 (tempFine r.adc_T c) c = 0#64 →
    ∃ t q, exec .comp s = .next t ∧ t.res = some q ∧ q.p_int = 0#64 ∧ q.p_f32 = 0#32 ∧ t.pDenomZero = true)
  ∧ (∀ (tf : S32) (c : Cal),
    (presVarP1 tf c = 0#64 ↔ 0 ≤ (presScaled tf c).toInt ∧ (presScaled tf c).toInt ≤ 2 ^ 33 - 1)
    ∧ (c.dig_P1 = 0#16 → presVarP1 tf c = 0#64))

/-- 41_compensate.md R119: the humidity stage up to the clamp over the integers, with `Int.bmod z (2 ^ 32)` for the
wrap. -/
def Obligations.HumidityStageFormula : Prop :=
  ∀ (adcH : BitVec 16) (tf : S32) (c : Cal),
    let w : Int → Int := fun z => z.bmod (2 ^ 32)
    let v := w (tf.toInt - 76800)
    let x1 := w (adcH.toNat * 2 ^ 14 - c.dig_H4.toInt * 2 ^ 20 - c.dig_H5.toInt * v + 16384) / 2 ^ 15
    let y1 := w (v * c.dig_H6.toInt) / 2 ^ 10
    let y2 := w (v * c.dig_H3.toNat) / 2 ^ 11 + 32768
    let y := w ((w (y1 * y2) / 2 ^ 10 + 2097152) * c.dig_H2.toInt + 8192) / 2 ^ 14
    let s := w (x1 * y) / 2 ^ 15
    (humX1 adcH tf c).toInt = x1 ∧ (humY tf c).toInt = y
    ∧ (humUnclamped adcH tf c).toInt = w (x1 * y - w (w (s * s) / 2 ^ 7 * c.dig_H1.toNat) / 2 ^ 4)

/-- 41_compensate.md section 4 (R120, R121): H_INT is the value clamped into [0, 419430400] and shifted by 12, so it
lies in [0, 102400]; the bounds themselves pass unchanged and set no flag, and the two flags exclude each other. -/
def Obligations.HumidityClampAndFlags : Prop :=
  ∀ v : S32,
    ((humInt v).toNat : Int) = max 0 (min v.toInt 419430400) / 4096
    ∧ (humInt v).toNat ≤ 102400
    ∧ (flagHClampLo v = true ↔ v.toInt < 0) ∧ (flagHClampHi v = true ↔ 419430400 < v.toInt)
    ∧ ¬(flagHClampLo v = true ∧ flagHClampHi v = true)

/-- 41_compensate.md section 5 (R125, marked [derived]): no output of the three conversions is NaN, infinite,
subnormal or -0.0, in any mode, and INT_DIV_FIRST maps every P_INT in [-255, 255] to +0.0. -/
def Obligations.ConversionsAreNeverSpecial : Prop :=
  (∀ t : S32, f32Finite (cvtT t) = true ∧ (f32Exp (cvtT t) = 0 → cvtT t = 0))
    ∧ (∀ (mode : PF32Mode) (p : S64), f32Finite (cvtP mode p) = true ∧ (f32Exp (cvtP mode p) = 0 → cvtP mode p = 0))
    ∧ (∀ h : BitVec 32, f32Finite (cvtH h) = true ∧ (f32Exp (cvtH h) = 0 → cvtH h = 0))
    ∧ (∀ p : S64, -255 ≤ p.toInt → p.toInt ≤ 255 → cvtP .intDivFirst p = 0)

/-- 41_compensate.md section 5 (R124, marked [derived]): the humidity conversion is exact, `H_INT / 1024`, for every
H_INT below 2^24, which every H_INT is. -/
def Obligations.HumidityConversionIsExact : Prop :=
  ∀ h : BitVec 32, h.toNat < 2 ^ 24 → f32Num (cvtH h) * 1024 = (h.toNat : Int) * f32Den

/-- 41_compensate.md section 5 (R122 to R124): the spec's worked conversions of T_INT, P_INT in its three modes, and
H_INT, and +0.0 for a zero in every mode. -/
def Obligations.ConversionExamples : Prop :=
  cvtT 2508 = 0x41C8A3D7 ∧ cvtT (wrap 32 (-1)) = 0xBC23D70A ∧ cvtT 0 = 0
    ∧ cvtP .roundOnce 25767233 = 0x447BA215 ∧ cvtP .f32Chain 25767233 = 0x447BA214
    ∧ cvtP .intDivFirst 25767233 = 0x447BA1EC ∧ (∀ mode, cvtP mode 0 = 0)
    ∧ cvtH 102400 = 0x42C80000 ∧ cvtH 0 = 0

/-- 41_compensate.md section 5 (R122, R123) at every input: T_F32 is the binary32 value nearest to `T_INT / 100`, and
P_F32 is what R123 defines for each mode. ROUND_ONCE rounds `P_INT / 25600` once. F32_CHAIN rounds P_INT to `a`, whose
`a / 256` is a binary32 value `b` exactly, and rounds `b / 100`. INT_DIV_FIRST truncates `P_INT / 256` toward zero to `q`,
rounds `q` to `a`, and rounds `a / 100`. (H_F32 is exact, above.) -/
def Obligations.ConversionsRoundToNearest : Prop :=
  (∀ t : S32, F32Nearest (cvtT t) t.toInt 100)
    ∧ (∀ p : S64, F32Nearest (cvtP .roundOnce p) p.toInt 25600)
    ∧ (∀ p : S64, ∃ a b : F32, F32Nearest a p.toInt 1 ∧ f32Finite b = true ∧ f32Num a = f32Num b * 256
        ∧ F32Nearest (cvtP .f32Chain p) (f32Num b) (f32Den * 100))
    ∧ (∀ p : S64, ∃ (q : Int) (a : F32), q = (if p.toInt < 0 then -(-p.toInt / 256) else p.toInt / 256)
        ∧ F32Nearest a q 1 ∧ F32Nearest (cvtP .intDivFirst p) (f32Num a) (f32Den * 100))

/-- 41_compensate.md R129: what COMP computes is a function of the calibration file, the raw file and P_F32_MODE only.
Two engines that agree on these end with the same TFINE, results and condition flags, whatever else they hold. -/
def Obligations.CompDependsOnItsInputsOnly : Prop :=
  ∀ (s₁ s₂ : State), s₁.cal = s₂.cal → s₁.raw = s₂.raw → s₁.params.pF32Mode = s₂.params.pF32Mode →
    s₁.cal ≠ none → s₁.raw ≠ none →
    ∃ t₁ t₂, exec .comp s₁ = .next t₁ ∧ exec .comp s₂ = .next t₂
      ∧ t₁.tfine = t₂.tfine ∧ t₁.res = t₂.res ∧ t₁.resultValid = t₂.resultValid ∧ t₁.pDenomZero = t₂.pDenomZero
      ∧ t₁.hClampLo = t₂.hClampLo ∧ t₁.hClampHi = t₂.hClampHi

/-- The frame of COMP (41_compensate.md section 6, R127, R128): it leaves every calibration and raw register as it
was, read as the host reads it; one that faults leaves everything but FAULT_CAUSE, and one that does not leaves
FAULT_CAUSE. -/
def Obligations.CompFrame : Prop :=
  ∀ s t : State, exec .comp s = .next t →
    (∀ r : Register, r.inCal = true ∨ r.inRaw = true → t.hostRead r = s.hostRead r)
    ∧ t.idx = s.idx ∧ t.inputs = s.inputs ∧ t.params = s.params
    ∧ (s.cal ≠ none → s.raw ≠ none → t.faultCause = s.faultCause)
    ∧ (s.cal = none ∨ s.raw = none →
        (∀ r : Register, r ≠ .status → r ≠ .faultCause → t.hostRead r = s.hostRead r)
        ∧ t.resultValid = s.resultValid ∧ t.pDenomZero = s.pDenomZero ∧ t.hClampLo = s.hClampLo
        ∧ t.hClampHi = s.hClampHi)

/-! ## The common entry step, faults and reset (60_exceptions.md, 70_reset_and_hazards.md) -/

/-- 60_exceptions.md R140: the common entry step of every command. The index moves on by one; a faulted engine ignores
the command; an illegal opcode raises ILLEGAL_COMMAND; a wrong payload length raises BAD_LENGTH; else the decoded
instruction runs. -/
def Obligations.StepRunsTheDecodedCommand : Prop :=
  ∀ (s : State) (c : Command) (rest : List HostInput), s.inputs = .command c :: rest →
    (s.faultCause ≠ 0#8 → step s = .next { s with inputs := rest, idx := s.idx + 1 })
    ∧ (s.faultCause = 0#8 → opcodeLen c.opcode = none →
        step s = .next { s with inputs := rest, idx := s.idx + 1, faultCause := 0x01#8 })
    ∧ (∀ n, s.faultCause = 0#8 → opcodeLen c.opcode = some n → c.payload.length ≠ n →
        step s = .next { s with inputs := rest, idx := s.idx + 1, faultCause := 0x02#8 })
    ∧ (∀ n, s.faultCause = 0#8 → opcodeLen c.opcode = some n → c.payload.length = n →
        ∃ i, decodeCommand c = .ok i ∧ step s = exec i { s with inputs := rest, idx := s.idx + 1 })

/-- The model's interface for one instruction (log entry 5): a table word the decoder reads as `i`, placed as the next
command of an unfaulted engine, is what the very next step runs, after the index moves on. -/
def Obligations.PlacedWordRunsNext : Prop :=
  ∀ (s : State) (nbits w : Nat) (i : Instr), s.faultCause = 0#8 → decodeTableWord nbits w = some i →
    step (s.withFetchWord nbits w) = exec i { s with idx := s.idx + 1 }

/-- 60_exceptions.md R141: a command meets at most one cause, in the order ILLEGAL_COMMAND, BAD_LENGTH, CAL_NOT_VALID,
RAW_NOT_LOADED; FAULT_CAUSE of an unfaulted engine after it is that cause's code, or 0. An ignored command records
nothing, so the first fault since reset is kept. -/
def Obligations.FirstCauseInPriorityIsRecorded : Prop :=
  ∀ (s : State) (c : Command) (rest : List HostInput), s.inputs = .command c :: rest →
    ∃ t, step s = .next t ∧
      t.faultCause =
        (if s.faultCause ≠ 0#8 then s.faultCause
         else if c.opcode.toNat = 0 ∨ 5 ≤ c.opcode.toNat then 0x01
         else if c.wellFormed = false then 0x02
         else if c.opcode.toNat = 3 ∧ s.cal = none then 0x03
         else if c.opcode.toNat = 3 ∧ s.raw = none then 0x04
         else 0x00#8)

/-- 60_exceptions.md R138, R139: a command that faults writes FAULT_CAUSE (with one of the four codes) and so FAULT,
and nothing else; every other register the host can read, and every other STATUS bit, is as before. -/
def Obligations.FaultsArePrecise : Prop :=
  ∀ s t : State, step s = .next t → s.faultCause = 0#8 → t.faultCause ≠ 0#8 →
    t = { s with faultCause := t.faultCause, idx := s.idx + 1, inputs := s.inputs.tail }
    ∧ (t.faultCause.toNat = 1 ∨ t.faultCause.toNat = 2 ∨ t.faultCause.toNat = 3 ∨ t.faultCause.toNat = 4)
    ∧ t.status = s.status ||| 0x80#8
    ∧ ∀ r : Register, r ≠ .status → r ≠ .faultCause → t.hostRead r = s.hostRead r

/-- 60_exceptions.md sections 2 (R140, R142): the faulted state is absorbing. Over any number of steps in which the
host issues commands only, a faulted engine keeps every register; only the index counts the ignored commands. -/
def Obligations.FaultedEngineIgnoresEveryCommand : Prop :=
  ∀ (cs : List Command) (s : State) (rest : List HostInput), s.faultCause ≠ 0#8 →
    s.inputs = cs.map HostInput.command ++ rest →
    Host.Core.run core cs.length s = .next { s with inputs := rest, idx := s.idx + cs.length }

/-- 60_exceptions.md R142: no command leaves the faulted state or changes its FAULT_CAUSE; only reset does, and reset
clears everything else too. -/
def Obligations.OnlyResetClearsAFault : Prop :=
  ∀ s t : State, step s = .next t → s.faultCause ≠ 0#8 → t.faultCause ≠ s.faultCause →
    (∃ rest, s.inputs = .reset :: rest) ∧ t.fault = false ∧ t.status = 0x00#8 ∧ t.idx = 0
    ∧ ∀ r : Register, r ≠ .status → r ≠ .faultCause → t.hostRead r = none

/-- 10_state.md R40 (reset itself: 70_reset_and_hazards.md R153): a reset by the host, in any state, leaves every data
register with no value, STATUS and FAULT_CAUSE 0x00 and the index 0. -/
def Obligations.HostResetGivesTheResetState : Prop :=
  ∀ (s : State) (rest : List HostInput), s.inputs = .reset :: rest →
    ∃ t, step s = .next t
      ∧ (∀ r : Register, r ≠ .status → r ≠ .faultCause → t.hostRead r = none)
      ∧ t.hostRead .status = some 0x00#8 ∧ t.hostRead .faultCause = some 0x00#8 ∧ t.idx = 0

/-- 10_state.md R40: the state right after reset, as the host reads it. -/
def Obligations.ResetStateReads : Prop :=
  (∀ r : Register, r ≠ .status → r ≠ .faultCause → State.reset.hostRead r = none)
    ∧ State.reset.status = 0x00#8 ∧ State.reset.faultCause = 0x00#8 ∧ State.reset.idx = 0

/-- 93_implementation_defined.md, Part 1 ("Every command is total on every state"), for the commands. That a step with
nothing issued exists and has a next state is the model's choice (log entry 3, DESIGN CHOICE); that the model itself never
faults or refuses is the model's inference (log entry 10, DEDUCED). -/
def Obligations.EveryCommandIsTotal : Prop :=
  (∀ (i : Instr) (s : State), ∃ t, exec i s = .next t) ∧ ∀ s : State, ∃ t, step s = .next t

/-! ## Rules of the whole machine (10_state.md, 20_memory.md) -/

/-- 10_state.md section 8 (R42, R43, marked [derived]) and the codes of 60_exceptions.md section 1 (R137): every step,
from every state that has these properties, leads to a state that has them. -/
def Obligations.StepKeepsTheInvariants : Prop :=
  ∀ s t : State, s.Kept → s.InRange → s.CauseCoded → step s = .next t → t.Kept ∧ t.InRange ∧ t.CauseCoded

/-- 10_state.md R30: RESULT_VALID = 1 goes on meaning that the result registers, TFINE and STATUS bits 3 to 5 were
computed from the present contents of the calibration and raw files, through every step from every state in which it
means that. -/
def Obligations.StepKeepsResultsCurrent : Prop :=
  ∀ s t : State, s.Current → step s = .next t → t.Current

/-- The invariants hold at reset (10_state.md section 7 and section 8). -/
def Obligations.ResetHasTheInvariants : Prop :=
  State.reset.Kept ∧ State.reset.InRange ∧ State.reset.CauseCoded ∧ State.reset.Current

/-- 10_state.md R27, R28, R29 (sections 4 and 5): only COMP writes TFINE, the result registers and the three condition
flags. A step that takes no COMP and no reset leaves them. -/
def Obligations.OnlyCompWritesResults : Prop :=
  ∀ s t : State, step s = .next t →
    (∀ rest, s.inputs ≠ .reset :: rest) →
    (∀ c rest, s.inputs = .command c :: rest → decodeCommand c ≠ .ok .comp) →
    (∀ r : Register, r.inResults = true → t.hostRead r = s.hostRead r)
    ∧ t.pDenomZero = s.pDenomZero ∧ t.hClampLo = s.hClampLo ∧ t.hClampHi = s.hClampHi

/-- 10_state.md R23, R24: a step changes the calibration file only by an LDCAL that finds it empty, an INVCAL that
empties it, or a reset, and never one coefficient alone. -/
def Obligations.OnlyLoadAndInvalidateChangeCalibration : Prop :=
  ∀ s t : State, step s = .next t → t.cal ≠ s.cal →
    (∃ rest, s.inputs = .reset :: rest ∧ t.cal = none)
    ∨ (∃ c rest img, s.inputs = .command c :: rest ∧ decodeCommand c = .ok (.ldcal img)
        ∧ s.cal = none ∧ t.cal = some (decodeCal img))
    ∨ (∃ c rest, s.inputs = .command c :: rest ∧ decodeCommand c = .ok .invcal ∧ t.cal = none)

/-- 10_state.md R25, R26: a step changes the raw file only by an LDRAW or a reset; RAW_VALID falls only by a reset. -/
def Obligations.OnlyLdrawAndResetChangeRaw : Prop :=
  ∀ s t : State, step s = .next t → t.raw ≠ s.raw →
    (∃ rest, s.inputs = .reset :: rest ∧ t.raw = none)
    ∨ (∃ c rest img, s.inputs = .command c :: rest ∧ decodeCommand c = .ok (.ldraw img)
        ∧ t.raw = some (decodeRaw s.params.adcHOrder img))

/-- 70_reset_and_hazards.md section 1 (R156): neither a command nor a reset changes the two parameters. That they stand
in the state at all is the model's choice (log entry 2). -/
def Obligations.ParametersStayFixed : Prop :=
  ∀ s t : State, step s = .next t → t.params = s.params

/-- 10_state.md R36: the command index starts at 0 and advances by exactly 1 per command, whether the command executes,
is a no-op, faults or is ignored. -/
def Obligations.IndexCountsEveryCommand : Prop :=
  State.reset.idx = 0 ∧ ∀ (s : State) (c : Command) (rest : List HostInput), s.inputs = .command c :: rest →
    ∃ t, step s = .next t ∧ t.idx = s.idx + 1

/-- 20_memory.md section 3 (R53) and 41_compensate.md section 6 (R130, marked [derived]): every command is idempotent.
Run again at once, it changes nothing more. -/
def Obligations.EveryCommandIsIdempotent : Prop :=
  ∀ (i : Instr) (s : State), ∃ t, exec i s = .next t ∧ exec i t = .next t

/-- 10_state.md R31, R32: the layout of STATUS, bit by bit; bit 6 always reads 0. -/
def Obligations.StatusLayout : Prop :=
  ∀ s : State,
    s.status.getLsbD 0 = s.cal.isSome ∧ s.status.getLsbD 1 = s.raw.isSome ∧ s.status.getLsbD 2 = s.resultValid
    ∧ s.status.getLsbD 3 = s.pDenomZero ∧ s.status.getLsbD 4 = s.hClampLo ∧ s.status.getLsbD 5 = s.hClampHi
    ∧ s.status.getLsbD 6 = false ∧ s.status.getLsbD 7 = decide (s.faultCause ≠ 0#8)

/-- 40_load.md section 5 (R99, marked [derived]) and 41_compensate.md section 6 (R126): STATUS after each command as a
mask on STATUS before it. -/
def Obligations.StatusAfterEachCommand : Prop :=
  ∀ (s t : State) (img : Vector Byte 32) (raw : Vector Byte 8),
    (exec (.ldcal img) s = .next t → t.status = if s.cal = none then (s.status ||| 0x01#8) &&& 0xFB#8 else s.status)
    ∧ (exec (.ldraw raw) s = .next t → t.status = (s.status ||| 0x02#8) &&& 0xFB#8)
    ∧ (exec .invcal s = .next t → t.status = if s.cal = none then s.status else s.status &&& 0xFA#8)
    ∧ (exec .comp s = .next t →
        if s.cal = none ∨ s.raw = none then t.status = s.status ||| 0x80#8
        else t.status &&& 0xC7#8 = (s.status ||| 0x04#8) &&& 0xC7#8)

/-- 10_state.md R39, R41 and section 8 (R42 (a), (b), marked [derived]): a register gives the host its content, or no
value: the calibration registers hold values exactly when STATUS bit 0 is 1, the raw registers exactly when bit 1 is
1, and STATUS and FAULT_CAUSE always. -/
def Obligations.HostReadsFollowTheValidBits : Prop :=
  ∀ (s : State) (r : Register),
    (r.inCal = true → (s.hostRead r).isSome = s.status.getLsbD 0)
    ∧ (r.inRaw = true → (s.hostRead r).isSome = s.status.getLsbD 1)
    ∧ (r.inCal = false → r.inRaw = false → r.inResults = false → (s.hostRead r).isSome = true)

/-- 70_reset_and_hazards.md R157 and section 5 (R170): from an engine just reset, whatever its parameters, LDCAL and
LDRAW in either order and then COMP end clean with meaningful results: those of the images' coefficients and readings. -/
def Obligations.BootOrderGivesResults : Prop :=
  ∀ (p : Params) (img : Vector Byte 32) (sample : Vector Byte 8) (cs : List Instr),
    cs = [.ldcal img, .ldraw sample, .comp] ∨ cs = [.ldraw sample, .ldcal img, .comp] →
    ∃ t, Host.Core.run core 3 ({ State.reset with params := p }.issue (cs.map encodeCommand)) = .next t
      ∧ t.Ended ∧ t.Meaningful ∧ t.idx = 3
      ∧ t.tfine = some (compensate p.pF32Mode (decodeCal img) (decodeRaw p.adcHOrder sample)).tfine
      ∧ t.res = some (compensate p.pF32Mode (decodeCal img) (decodeRaw p.adcHOrder sample)).res

/-- 70_reset_and_hazards.md R164: in any unfaulted state, COMP between INVCAL and the next LDCAL faults with
CAL_NOT_VALID, whatever LDRAWs and further INVCALs stand between them. (Another COMP, or a pair that is no command,
faults there itself.) -/
def Obligations.CompAfterInvcalFaults : Prop :=
  ∀ (s : State) (between : List Instr) (rest : List HostInput), s.faultCause = 0#8 →
    (∀ i ∈ between, (∃ img, i = .ldraw img) ∨ i = .invcal) →
    s.inputs = ((Instr.invcal :: between) ++ [Instr.comp]).map (HostInput.command ∘ encodeCommand) ++ rest →
    ∃ t, Host.Core.run core (between.length + 2) s = .next t ∧ t.faultCause = 0x03#8 ∧ t.cal = none

/-- 20_memory.md section 4 (R55): commands take effect one at a time in the order the engine accepts them: what the host issues
later has no influence on the states before, and the later inputs find the state the earlier ones left. -/
def Obligations.LaterInputsDoNotReachBack : Prop :=
  ∀ (first later : List HostInput) (s : State), s.inputs = [] →
    ∃ t, Host.Core.run core first.length { s with inputs := first } = .next t ∧ t.inputs = []
      ∧ Host.Core.run core first.length { s with inputs := first ++ later } = .next { t with inputs := later }
      ∧ Host.Core.run core (first.length + later.length) { s with inputs := first ++ later }
          = Host.Core.run core later.length { t with inputs := later }

/-- 70_reset_and_hazards.md section 2 (R158) and 20_memory.md section 1 (R46), with the host's side as log entry 11
(DESIGN CHOICE) models it: a host that keeps the chip-identity duty and finds another chip issues no LDCAL; one that
finds the chip issues the LDCAL of the sensor's own registers, which every unfaulted engine without a calibration takes.
All 18 coefficients are those the sensor's registers spell. -/
def Obligations.DutifulOpenLoadsOnlyTheRightChip : Prop :=
  ∀ (sensor : Byte → Byte),
    (sensor 0xD0#8 ≠ 0x60#8 → hostOpen sensor = [])
    ∧ (sensor 0xD0#8 = 0x60#8 → ∀ (s : State) (rest : List HostInput), s.faultCause = 0#8 → s.cal = none →
        s.inputs = (hostOpen sensor).map HostInput.command ++ rest →
        ∃ c : Cal,
          step s = .next { s with cal := some c, resultValid := false, idx := s.idx + 1, inputs := rest }
          ∧ c = decodeCal (calImageOf sensor)
          ∧ c.dig_T1.toNat = (sensor 0x88#8).toNat + 256 * (sensor 0x89#8).toNat
          ∧ c.dig_T2.toInt = (sensor 0x8A#8).toNat + 256 * (sensor 0x8B#8).toInt
          ∧ c.dig_T3.toInt = (sensor 0x8C#8).toNat + 256 * (sensor 0x8D#8).toInt
          ∧ c.dig_P1.toNat = (sensor 0x8E#8).toNat + 256 * (sensor 0x8F#8).toNat
          ∧ c.dig_P2.toInt = (sensor 0x90#8).toNat + 256 * (sensor 0x91#8).toInt
          ∧ c.dig_P3.toInt = (sensor 0x92#8).toNat + 256 * (sensor 0x93#8).toInt
          ∧ c.dig_P4.toInt = (sensor 0x94#8).toNat + 256 * (sensor 0x95#8).toInt
          ∧ c.dig_P5.toInt = (sensor 0x96#8).toNat + 256 * (sensor 0x97#8).toInt
          ∧ c.dig_P6.toInt = (sensor 0x98#8).toNat + 256 * (sensor 0x99#8).toInt
          ∧ c.dig_P7.toInt = (sensor 0x9A#8).toNat + 256 * (sensor 0x9B#8).toInt
          ∧ c.dig_P8.toInt = (sensor 0x9C#8).toNat + 256 * (sensor 0x9D#8).toInt
          ∧ c.dig_P9.toInt = (sensor 0x9E#8).toNat + 256 * (sensor 0x9F#8).toInt
          ∧ c.dig_H1 = sensor 0xA1#8
          ∧ c.dig_H2.toInt = (sensor 0xE1#8).toNat + 256 * (sensor 0xE2#8).toInt
          ∧ c.dig_H3 = sensor 0xE3#8
          ∧ c.dig_H4.toInt = (sensor 0xE4#8).toInt * 16 + ((sensor 0xE5#8).toNat % 16 : Nat)
          ∧ c.dig_H5.toInt = (sensor 0xE6#8).toInt * 16 + ((sensor 0xE5#8).toNat / 16 : Nat)
          ∧ c.dig_H6 = sensor 0xE7#8)

/-- 60_exceptions.md section 4 (R152: "The engine holds its state for as long as it is not reset"): where the host has
issued nothing, any number of steps change nothing. That such a step is a step at all is the model's choice (log entry
3). -/
def Obligations.IdleEngineHoldsItsState : Prop :=
  ∀ (n : Nat) (s : State), s.inputs = [] → Host.Core.run core n s = .next s

/-! ## The assembler (30_encoding.md) -/

/-- 30_encoding.md section 4 (R75): the assembler refuses a raw form of LDRAW or LDCAL exactly when it has the wrong
number of bytes or a byte outside 0..255; every other raw form is the LDRAW or LDCAL of exactly the bytes given. -/
def Obligations.AssemblerRefusesBadRawForms : Prop :=
  ∀ (order : AdcHOrder) (os : List AsmOperand) (vs : List Int), plainValues os = some vs →
    (vs.length ≠ 8 ∨ (∃ v ∈ vs, v < 0 ∨ 255 < v) → assembleLine order "LDRAW".toList os = none)
    ∧ (vs.length = 8 → (∀ v ∈ vs, 0 ≤ v ∧ v ≤ 255) → ∃ img : Vector Byte 8,
        assembleLine order "LDRAW".toList os = some [.ldraw img] ∧ img.toList.map (fun b => (b.toNat : Int)) = vs)
    ∧ (vs.length ≠ 32 ∨ (∃ v ∈ vs, v < 0 ∨ 255 < v) → assembleLine order "LDCAL".toList os = none)
    ∧ (vs.length = 32 → (∀ v ∈ vs, 0 ≤ v ∧ v ≤ 255) → ∃ img : Vector Byte 32,
        assembleLine order "LDCAL".toList os = some [.ldcal img] ∧ img.toList.map (fun b => (b.toNat : Int)) = vs)

/-- 30_encoding.md section 4 (R75, R76): a field form of LDRAW that the assembler takes has each of its three fields
exactly once and no other, and each register gets exactly the integer that was given; so with the 18 fields of LDCAL. And
a form that gives each field once, in any order, at a value of its type is taken: it is the LDRAW or LDCAL of the payload
R76 spells. -/
def Obligations.AssembledFieldsAreTheGivenValues : Prop :=
  (∀ (fs : List (List Char × Int)) (r : Raw), rawFields fs = some r →
    fs.length = 3
    ∧ fs.filter (fun f => f.1 = "P".toList) = [("P".toList, (r.adc_P.toNat : Int))]
    ∧ fs.filter (fun f => f.1 = "T".toList) = [("T".toList, (r.adc_T.toNat : Int))]
    ∧ fs.filter (fun f => f.1 = "H".toList) = [("H".toList, (r.adc_H.toNat : Int))])
  ∧ (∀ (fs : List (List Char × Int)) (c : Cal), calFields fs = some c →
    fs.length = 18
    ∧ fs.filter (fun f => f.1 = "T1".toList) = [("T1".toList, (c.dig_T1.toNat : Int))]
    ∧ fs.filter (fun f => f.1 = "T2".toList) = [("T2".toList, c.dig_T2.toInt)]
    ∧ fs.filter (fun f => f.1 = "T3".toList) = [("T3".toList, c.dig_T3.toInt)]
    ∧ fs.filter (fun f => f.1 = "P1".toList) = [("P1".toList, (c.dig_P1.toNat : Int))]
    ∧ fs.filter (fun f => f.1 = "P2".toList) = [("P2".toList, c.dig_P2.toInt)]
    ∧ fs.filter (fun f => f.1 = "P3".toList) = [("P3".toList, c.dig_P3.toInt)]
    ∧ fs.filter (fun f => f.1 = "P4".toList) = [("P4".toList, c.dig_P4.toInt)]
    ∧ fs.filter (fun f => f.1 = "P5".toList) = [("P5".toList, c.dig_P5.toInt)]
    ∧ fs.filter (fun f => f.1 = "P6".toList) = [("P6".toList, c.dig_P6.toInt)]
    ∧ fs.filter (fun f => f.1 = "P7".toList) = [("P7".toList, c.dig_P7.toInt)]
    ∧ fs.filter (fun f => f.1 = "P8".toList) = [("P8".toList, c.dig_P8.toInt)]
    ∧ fs.filter (fun f => f.1 = "P9".toList) = [("P9".toList, c.dig_P9.toInt)]
    ∧ fs.filter (fun f => f.1 = "H1".toList) = [("H1".toList, (c.dig_H1.toNat : Int))]
    ∧ fs.filter (fun f => f.1 = "H2".toList) = [("H2".toList, c.dig_H2.toInt)]
    ∧ fs.filter (fun f => f.1 = "H3".toList) = [("H3".toList, (c.dig_H3.toNat : Int))]
    ∧ fs.filter (fun f => f.1 = "H4".toList) = [("H4".toList, c.dig_H4.toInt)]
    ∧ fs.filter (fun f => f.1 = "H5".toList) = [("H5".toList, c.dig_H5.toInt)]
    ∧ fs.filter (fun f => f.1 = "H6".toList) = [("H6".toList, c.dig_H6.toInt)])
  ∧ (∀ (order : AdcHOrder) (fs : List (List Char × Int)) (is : List Instr),
    (assembleLine order "LDRAW".toList (fs.map fun f => .field f.1 f.2) = some is ↔
      ∃ r, rawFields fs = some r ∧ is = [.ldraw (encodeRaw order r)])
    ∧ (assembleLine order "LDCAL".toList (fs.map fun f => .field f.1 f.2) = some is ↔
      ∃ c, calFields fs = some c ∧ is = [.ldcal (encodeCal c)]))
  ∧ (∀ (fs : List (List Char × Int)) (r : Raw),
    fs.Perm [("P".toList, r.adc_P.toNat), ("T".toList, r.adc_T.toNat), ("H".toList, r.adc_H.toNat)] →
      rawFields fs = some r)
  ∧ (∀ (fs : List (List Char × Int)) (c : Cal),
    fs.Perm [("T1".toList, c.dig_T1.toNat), ("T2".toList, c.dig_T2.toInt), ("T3".toList, c.dig_T3.toInt),
        ("P1".toList, c.dig_P1.toNat), ("P2".toList, c.dig_P2.toInt), ("P3".toList, c.dig_P3.toInt),
        ("P4".toList, c.dig_P4.toInt), ("P5".toList, c.dig_P5.toInt), ("P6".toList, c.dig_P6.toInt),
        ("P7".toList, c.dig_P7.toInt), ("P8".toList, c.dig_P8.toInt), ("P9".toList, c.dig_P9.toInt),
        ("H1".toList, c.dig_H1.toNat), ("H2".toList, c.dig_H2.toInt), ("H3".toList, c.dig_H3.toNat),
        ("H4".toList, c.dig_H4.toInt), ("H5".toList, c.dig_H5.toInt), ("H6".toList, c.dig_H6.toInt)] →
      calFields fs = some c)
end

