-- ==== Sys2Proof/Laws/Arith.lean ====
section
/-!
SUPPORT. What the integer primitives compute, as integers: one spec lemma per primitive (00_scope.md R12 to R16). The
lemmas about a range say when no wrap happens.
-/

namespace Sys2Proof.Machine

theorem wrap_toInt (n : Nat) (z : Int) : (wrap n z).toInt = z.bmod (2 ^ n) := by
  unfold wrap
  exact BitVec.toInt_ofInt z

theorem addW_toInt {n : Nat} (x y : BitVec n) : (addW x y).toInt = (x.toInt + y.toInt).bmod (2 ^ n) :=
  wrap_toInt n _

theorem subW_toInt {n : Nat} (x y : BitVec n) : (subW x y).toInt = (x.toInt - y.toInt).bmod (2 ^ n) :=
  wrap_toInt n _

theorem mulW_toInt {n : Nat} (x y : BitVec n) : (mulW x y).toInt = (x.toInt * y.toInt).bmod (2 ^ n) :=
  wrap_toInt n _

theorem shlW_toInt {n : Nat} (x : BitVec n) (k : Nat) : (shlW x k).toInt = (x.toInt * 2 ^ k).bmod (2 ^ n) :=
  wrap_toInt n _

theorem quot64_toInt (a b : S64) : (quot64 a b).toInt = (a.toInt.tdiv b.toInt).bmod (2 ^ 64) := wrap_toInt 64 _

/-- An integer of sN is its own wrap. -/
theorem wrap_toInt_of_bounds {n : Nat} (hn : 0 < n) {z : Int} (h1 : -(2 ^ (n - 1)) ≤ z) (h2 : z < 2 ^ (n - 1)) :
    (wrap n z).toInt = z := by
  obtain ⟨m, rfl⟩ : ∃ m, n = m + 1 := ⟨n - 1, by omega⟩
  simp only [Nat.add_sub_cancel] at h1 h2
  rw [wrap_toInt, Int.bmod_eq_of_le_mul_two] <;> push_cast <;> rw [pow_succ] <;> omega

/-- The two's-complement range of a pattern (00_scope.md R11). -/
theorem toInt_bounds {n : Nat} (hn : 0 < n) (x : BitVec n) :
    -(2 ^ (n - 1)) ≤ x.toInt ∧ x.toInt < 2 ^ (n - 1) := by
  obtain ⟨m, rfl⟩ : ∃ m, n = m + 1 := ⟨n - 1, by omega⟩
  have h1 := BitVec.le_toInt x
  have h2 := BitVec.toInt_lt (x := x)
  simpa using ⟨h1, h2⟩

/-- The arithmetic shift never wraps: it is the floor of the division (00_scope.md R13, 41_compensate.md R132). -/
theorem asr_toInt {n : Nat} (hn : 0 < n) (x : BitVec n) (k : Nat) : (asr x k).toInt = x.toInt / 2 ^ k := by
  obtain ⟨h1, h2⟩ := toInt_bounds hn x
  have hk : (0 : Int) < 2 ^ k := by positivity
  have hk1 : (1 : Int) ≤ 2 ^ k := hk
  refine wrap_toInt_of_bounds hn ?_ ?_
  · refine (Int.le_ediv_iff_mul_le hk).2 ?_
    nlinarith [show (0 : Int) < 2 ^ (n - 1) by positivity]
  · refine (Int.ediv_lt_iff_lt_mul hk).2 ?_
    nlinarith [show (0 : Int) < 2 ^ (n - 1) by positivity]

/-- Sign extension keeps the value (00_scope.md R15). -/
theorem sext_toInt {m n : Nat} (hm : 0 < m) (h : m ≤ n) (v : BitVec m) : (sext n v).toInt = v.toInt := by
  obtain ⟨h1, h2⟩ := toInt_bounds hm v
  have hp : (2 : Int) ^ (m - 1) ≤ 2 ^ (n - 1) := pow_le_pow_right₀ (by norm_num) (by omega)
  exact wrap_toInt_of_bounds (by omega) (by omega) (by omega)

/-- Zero extension into a wider word keeps the unsigned value (00_scope.md R15, 41_compensate.md R133). -/
theorem zext_toInt {m n : Nat} (h : m < n) (v : BitVec m) : (zext n v).toInt = v.toNat := by
  have hv := v.isLt
  have hp : (2 : Int) ^ m ≤ 2 ^ (n - 1) := pow_le_pow_right₀ (by norm_num) (by omega)
  have hv' : (v.toNat : Int) < 2 ^ m := by exact_mod_cast hv
  have h0 : (0 : Int) < 2 ^ (n - 1) := by positivity
  exact wrap_toInt_of_bounds (by omega) (by omega) (by omega)

/-- Sign extension, as the bit-vector operation. -/
theorem sext_eq_signExtend {m n : Nat} (hm : 0 < m) (h : m ≤ n) (v : BitVec m) : sext n v = v.signExtend n := by
  apply BitVec.eq_of_toInt_eq
  rw [sext_toInt hm h, BitVec.toInt_signExtend_of_le h]

/-- Zero extension, as the bit-vector operation. -/
theorem zext_eq_setWidth {m n : Nat} (h : m < n) (v : BitVec m) : zext n v = v.setWidth n := by
  apply BitVec.eq_of_toInt_eq
  have hv : (v.setWidth n).toNat = v.toNat := by
    rw [BitVec.toNat_setWidth, Nat.mod_eq_of_lt (lt_trans v.isLt (Nat.pow_lt_pow_right (by omega) h))]
  rw [zext_toInt h, BitVec.toInt_eq_toNat_of_lt, hv]
  obtain ⟨k, rfl⟩ : ∃ k, n = k + 1 := ⟨n - 1, by omega⟩
  have hp : 2 ^ m ≤ 2 ^ k := Nat.pow_le_pow_right (by omega) (by omega)
  rw [hv, pow_succ]
  omega

/-- The clamp's result lies between its bounds (00_scope.md R16). -/
theorem clampW_toInt {n : Nat} (x lo hi : BitVec n) (h : lo.toInt ≤ hi.toInt) :
    (clampW x lo hi).toInt = max lo.toInt (min x.toInt hi.toInt) := by
  unfold clampW
  split
  · omega
  · split <;> omega

end Sys2Proof.Machine
end

