-- ==== Sys2Proof/Laws/Assembler.lean ====
section
/-!
SUPPORT. What the helpers of the assembler answer: byte values, named fields, a field that is given once.
-/

namespace Sys2Proof.Machine

/-- The bytes of values are the bytes that spell exactly those values; there are none where one lies outside 0..255. -/
theorem bytesOf_eq_some_iff (vs : List Int) (bs : List Byte) :
    bytesOf vs = some bs ↔ bs.map (fun b => (b.toNat : Int)) = vs := by
  induction vs generalizing bs with
  | nil => cases bs <;> simp [bytesOf]
  | cons v vs ih =>
    cases bs with
    | nil => simp only [bytesOf]; split <;> simp
    | cons b bs =>
      have hb := b.isLt
      simp only [bytesOf, List.map_cons, List.cons.injEq]
      split
      · simp only [Option.map_eq_some_iff, List.cons.injEq, ih]
        constructor
        · rintro ⟨_, h, rfl, rfl⟩
          exact ⟨by simp only [BitVec.toNat_ofInt]; omega, h⟩
        · rintro ⟨rfl, h⟩
          exact ⟨bs, h, by simp, rfl⟩
      · simp only [reduceCtorEq, false_iff]
        omega

/-- Operands that are all named fields give those fields. -/
@[simp] theorem namedFields_map (fs : List (List Char × Int)) :
    namedFields (fs.map fun f => .field f.1 f.2) = some fs := by
  induction fs with
  | nil => rfl
  | cons f fs ih => simp [namedFields, ih]

/-- A field is given once, at `v`, exactly when it is the only one of its name. -/
theorem fieldOnce_eq_some_iff (name : String) (fs : List (List Char × Int)) (v : Int) :
    fieldOnce name fs = some v ↔ fs.filter (fun f => f.1 = name.toList) = [(name.toList, v)] := by
  unfold fieldOnce
  split
  · rename_i f hf
    have : f ∈ fs.filter fun f => f.1 = name.toList := by simp [hf]
    simp only [List.mem_filter, decide_eq_true_eq] at this
    rw [hf]
    simp [Prod.ext_iff, this.2]
  · rename_i h
    simp only [reduceCtorEq, false_iff]
    exact h _

/-- An unsigned field is taken, at `v`, exactly when it is given once and its value is that of `v`. -/
theorem fieldU_eq_some_iff (n : Nat) (name : String) (fs : List (List Char × Int)) (v : BitVec n) :
    fieldU n name fs = some v ↔ fs.filter (fun f => f.1 = name.toList) = [(name.toList, (v.toNat : Int))] := by
  have hv : (v.toNat : Int) < 2 ^ n := by exact_mod_cast v.isLt
  rw [← fieldOnce_eq_some_iff]
  simp only [fieldU, Option.bind_eq_some_iff]
  constructor
  · rintro ⟨z, h1, h2⟩
    split at h2
    · rename_i hz
      cases h2
      rw [h1, wrap, BitVec.toNat_ofInt, Int.emod_eq_of_lt hz.1 (by exact_mod_cast hz.2), Int.toNat_of_nonneg hz.1]
    · cases h2
  · intro h
    exact ⟨_, h, by simp [hv, wrap]⟩

/-- A signed field is taken, at `v`, exactly when it is given once and its value is that of `v`. -/
theorem fieldS_eq_some_iff {n : Nat} (hn : 0 < n) (name : String) (fs : List (List Char × Int)) (v : BitVec n) :
    fieldS n name fs = some v ↔ fs.filter (fun f => f.1 = name.toList) = [(name.toList, v.toInt)] := by
  rw [← fieldOnce_eq_some_iff]
  simp only [fieldS, Option.bind_eq_some_iff]
  constructor
  · rintro ⟨z, h1, h2⟩
    split at h2
    · rename_i hz
      cases h2
      rw [h1, wrap_toInt_of_bounds hn hz.1 hz.2]
    · cases h2
  · intro h
    exact ⟨_, h, by rw [if_pos ⟨BitVec.le_toInt v, BitVec.toInt_lt⟩, wrap, BitVec.ofInt_toInt]⟩

end Sys2Proof.Machine
end

