-- ==== Sys2Proof/Laws/State.lean ====
section
/-!
SUPPORT. One lemma per field per named operation of Machine/Ops.lean, so that no later proof unfolds a record update.
-/

namespace Sys2Proof.Machine

/-! What `State.takeFault` leaves in each field. -/

@[simp] theorem State.takeFault_cal (cause : FaultCause) (s : State) : (s.takeFault cause).cal = s.cal := rfl
@[simp] theorem State.takeFault_raw (cause : FaultCause) (s : State) : (s.takeFault cause).raw = s.raw := rfl
@[simp] theorem State.takeFault_tfine (cause : FaultCause) (s : State) : (s.takeFault cause).tfine = s.tfine := rfl
@[simp] theorem State.takeFault_res (cause : FaultCause) (s : State) : (s.takeFault cause).res = s.res := rfl
@[simp] theorem State.takeFault_resultValid (cause : FaultCause) (s : State) : (s.takeFault cause).resultValid = s.resultValid := rfl
@[simp] theorem State.takeFault_pDenomZero (cause : FaultCause) (s : State) : (s.takeFault cause).pDenomZero = s.pDenomZero := rfl
@[simp] theorem State.takeFault_hClampLo (cause : FaultCause) (s : State) : (s.takeFault cause).hClampLo = s.hClampLo := rfl
@[simp] theorem State.takeFault_hClampHi (cause : FaultCause) (s : State) : (s.takeFault cause).hClampHi = s.hClampHi := rfl
@[simp] theorem State.takeFault_faultCause (cause : FaultCause) (s : State) : (s.takeFault cause).faultCause = cause.code := rfl
@[simp] theorem State.takeFault_idx (cause : FaultCause) (s : State) : (s.takeFault cause).idx = s.idx := rfl
@[simp] theorem State.takeFault_inputs (cause : FaultCause) (s : State) : (s.takeFault cause).inputs = s.inputs := rfl
@[simp] theorem State.takeFault_params (cause : FaultCause) (s : State) : (s.takeFault cause).params = s.params := rfl

/-! What `State.advance` leaves in each field. -/

@[simp] theorem State.advance_cal (s : State) : s.advance.cal = s.cal := rfl
@[simp] theorem State.advance_raw (s : State) : s.advance.raw = s.raw := rfl
@[simp] theorem State.advance_tfine (s : State) : s.advance.tfine = s.tfine := rfl
@[simp] theorem State.advance_res (s : State) : s.advance.res = s.res := rfl
@[simp] theorem State.advance_resultValid (s : State) : s.advance.resultValid = s.resultValid := rfl
@[simp] theorem State.advance_pDenomZero (s : State) : s.advance.pDenomZero = s.pDenomZero := rfl
@[simp] theorem State.advance_hClampLo (s : State) : s.advance.hClampLo = s.hClampLo := rfl
@[simp] theorem State.advance_hClampHi (s : State) : s.advance.hClampHi = s.hClampHi := rfl
@[simp] theorem State.advance_faultCause (s : State) : s.advance.faultCause = s.faultCause := rfl
@[simp] theorem State.advance_idx (s : State) : s.advance.idx = s.idx + 1 := rfl
@[simp] theorem State.advance_inputs (s : State) : s.advance.inputs = s.inputs := rfl
@[simp] theorem State.advance_params (s : State) : s.advance.params = s.params := rfl

/-! What `State.loadCal` leaves in each field. -/

@[simp] theorem State.loadCal_cal (c : Cal) (s : State) : (s.loadCal c).cal = some c := rfl
@[simp] theorem State.loadCal_raw (c : Cal) (s : State) : (s.loadCal c).raw = s.raw := rfl
@[simp] theorem State.loadCal_tfine (c : Cal) (s : State) : (s.loadCal c).tfine = s.tfine := rfl
@[simp] theorem State.loadCal_res (c : Cal) (s : State) : (s.loadCal c).res = s.res := rfl
@[simp] theorem State.loadCal_resultValid (c : Cal) (s : State) : (s.loadCal c).resultValid = false := rfl
@[simp] theorem State.loadCal_pDenomZero (c : Cal) (s : State) : (s.loadCal c).pDenomZero = s.pDenomZero := rfl
@[simp] theorem State.loadCal_hClampLo (c : Cal) (s : State) : (s.loadCal c).hClampLo = s.hClampLo := rfl
@[simp] theorem State.loadCal_hClampHi (c : Cal) (s : State) : (s.loadCal c).hClampHi = s.hClampHi := rfl
@[simp] theorem State.loadCal_faultCause (c : Cal) (s : State) : (s.loadCal c).faultCause = s.faultCause := rfl
@[simp] theorem State.loadCal_idx (c : Cal) (s : State) : (s.loadCal c).idx = s.idx := rfl
@[simp] theorem State.loadCal_inputs (c : Cal) (s : State) : (s.loadCal c).inputs = s.inputs := rfl
@[simp] theorem State.loadCal_params (c : Cal) (s : State) : (s.loadCal c).params = s.params := rfl

/-! What `State.clearCal` leaves in each field. -/

@[simp] theorem State.clearCal_cal (s : State) : s.clearCal.cal = none := rfl
@[simp] theorem State.clearCal_raw (s : State) : s.clearCal.raw = s.raw := rfl
@[simp] theorem State.clearCal_tfine (s : State) : s.clearCal.tfine = s.tfine := rfl
@[simp] theorem State.clearCal_res (s : State) : s.clearCal.res = s.res := rfl
@[simp] theorem State.clearCal_resultValid (s : State) : s.clearCal.resultValid = false := rfl
@[simp] theorem State.clearCal_pDenomZero (s : State) : s.clearCal.pDenomZero = s.pDenomZero := rfl
@[simp] theorem State.clearCal_hClampLo (s : State) : s.clearCal.hClampLo = s.hClampLo := rfl
@[simp] theorem State.clearCal_hClampHi (s : State) : s.clearCal.hClampHi = s.hClampHi := rfl
@[simp] theorem State.clearCal_faultCause (s : State) : s.clearCal.faultCause = s.faultCause := rfl
@[simp] theorem State.clearCal_idx (s : State) : s.clearCal.idx = s.idx := rfl
@[simp] theorem State.clearCal_inputs (s : State) : s.clearCal.inputs = s.inputs := rfl
@[simp] theorem State.clearCal_params (s : State) : s.clearCal.params = s.params := rfl

/-! What `State.loadRaw` leaves in each field. -/

@[simp] theorem State.loadRaw_cal (r : Raw) (s : State) : (s.loadRaw r).cal = s.cal := rfl
@[simp] theorem State.loadRaw_raw (r : Raw) (s : State) : (s.loadRaw r).raw = some r := rfl
@[simp] theorem State.loadRaw_tfine (r : Raw) (s : State) : (s.loadRaw r).tfine = s.tfine := rfl
@[simp] theorem State.loadRaw_res (r : Raw) (s : State) : (s.loadRaw r).res = s.res := rfl
@[simp] theorem State.loadRaw_resultValid (r : Raw) (s : State) : (s.loadRaw r).resultValid = false := rfl
@[simp] theorem State.loadRaw_pDenomZero (r : Raw) (s : State) : (s.loadRaw r).pDenomZero = s.pDenomZero := rfl
@[simp] theorem State.loadRaw_hClampLo (r : Raw) (s : State) : (s.loadRaw r).hClampLo = s.hClampLo := rfl
@[simp] theorem State.loadRaw_hClampHi (r : Raw) (s : State) : (s.loadRaw r).hClampHi = s.hClampHi := rfl
@[simp] theorem State.loadRaw_faultCause (r : Raw) (s : State) : (s.loadRaw r).faultCause = s.faultCause := rfl
@[simp] theorem State.loadRaw_idx (r : Raw) (s : State) : (s.loadRaw r).idx = s.idx := rfl
@[simp] theorem State.loadRaw_inputs (r : Raw) (s : State) : (s.loadRaw r).inputs = s.inputs := rfl
@[simp] theorem State.loadRaw_params (r : Raw) (s : State) : (s.loadRaw r).params = s.params := rfl

/-! What `State.writeResult` leaves in each field. -/

@[simp] theorem State.writeResult_cal (o : CompResult) (s : State) : (s.writeResult o).cal = s.cal := rfl
@[simp] theorem State.writeResult_raw (o : CompResult) (s : State) : (s.writeResult o).raw = s.raw := rfl
@[simp] theorem State.writeResult_tfine (o : CompResult) (s : State) : (s.writeResult o).tfine = some o.tfine := rfl
@[simp] theorem State.writeResult_res (o : CompResult) (s : State) : (s.writeResult o).res = some o.res := rfl
@[simp] theorem State.writeResult_resultValid (o : CompResult) (s : State) : (s.writeResult o).resultValid = true := rfl
@[simp] theorem State.writeResult_pDenomZero (o : CompResult) (s : State) : (s.writeResult o).pDenomZero = o.pDenomZero := rfl
@[simp] theorem State.writeResult_hClampLo (o : CompResult) (s : State) : (s.writeResult o).hClampLo = o.hClampLo := rfl
@[simp] theorem State.writeResult_hClampHi (o : CompResult) (s : State) : (s.writeResult o).hClampHi = o.hClampHi := rfl
@[simp] theorem State.writeResult_faultCause (o : CompResult) (s : State) : (s.writeResult o).faultCause = s.faultCause := rfl
@[simp] theorem State.writeResult_idx (o : CompResult) (s : State) : (s.writeResult o).idx = s.idx := rfl
@[simp] theorem State.writeResult_inputs (o : CompResult) (s : State) : (s.writeResult o).inputs = s.inputs := rfl
@[simp] theorem State.writeResult_params (o : CompResult) (s : State) : (s.writeResult o).params = s.params := rfl

/-! What `State.hostReset` leaves in each field. -/

@[simp] theorem State.hostReset_cal (s : State) : s.hostReset.cal = none := rfl
@[simp] theorem State.hostReset_raw (s : State) : s.hostReset.raw = none := rfl
@[simp] theorem State.hostReset_tfine (s : State) : s.hostReset.tfine = none := rfl
@[simp] theorem State.hostReset_res (s : State) : s.hostReset.res = none := rfl
@[simp] theorem State.hostReset_resultValid (s : State) : s.hostReset.resultValid = false := rfl
@[simp] theorem State.hostReset_pDenomZero (s : State) : s.hostReset.pDenomZero = false := rfl
@[simp] theorem State.hostReset_hClampLo (s : State) : s.hostReset.hClampLo = false := rfl
@[simp] theorem State.hostReset_hClampHi (s : State) : s.hostReset.hClampHi = false := rfl
@[simp] theorem State.hostReset_faultCause (s : State) : s.hostReset.faultCause = 0x00#8 := rfl
@[simp] theorem State.hostReset_idx (s : State) : s.hostReset.idx = 0 := rfl
@[simp] theorem State.hostReset_inputs (s : State) : s.hostReset.inputs = s.inputs := rfl
@[simp] theorem State.hostReset_params (s : State) : s.hostReset.params = s.params := rfl

/-! What `State.dropInput` leaves in each field. -/

@[simp] theorem State.dropInput_cal (s : State) : s.dropInput.cal = s.cal := rfl
@[simp] theorem State.dropInput_raw (s : State) : s.dropInput.raw = s.raw := rfl
@[simp] theorem State.dropInput_tfine (s : State) : s.dropInput.tfine = s.tfine := rfl
@[simp] theorem State.dropInput_res (s : State) : s.dropInput.res = s.res := rfl
@[simp] theorem State.dropInput_resultValid (s : State) : s.dropInput.resultValid = s.resultValid := rfl
@[simp] theorem State.dropInput_pDenomZero (s : State) : s.dropInput.pDenomZero = s.pDenomZero := rfl
@[simp] theorem State.dropInput_hClampLo (s : State) : s.dropInput.hClampLo = s.hClampLo := rfl
@[simp] theorem State.dropInput_hClampHi (s : State) : s.dropInput.hClampHi = s.hClampHi := rfl
@[simp] theorem State.dropInput_faultCause (s : State) : s.dropInput.faultCause = s.faultCause := rfl
@[simp] theorem State.dropInput_idx (s : State) : s.dropInput.idx = s.idx := rfl
@[simp] theorem State.dropInput_inputs (s : State) : s.dropInput.inputs = s.inputs.tail := rfl
@[simp] theorem State.dropInput_params (s : State) : s.dropInput.params = s.params := rfl

/-! What `State.issue` leaves in each field. -/

@[simp] theorem State.issue_cal (cs : List Command) (s : State) : (s.issue cs).cal = s.cal := rfl
@[simp] theorem State.issue_raw (cs : List Command) (s : State) : (s.issue cs).raw = s.raw := rfl
@[simp] theorem State.issue_tfine (cs : List Command) (s : State) : (s.issue cs).tfine = s.tfine := rfl
@[simp] theorem State.issue_res (cs : List Command) (s : State) : (s.issue cs).res = s.res := rfl
@[simp] theorem State.issue_resultValid (cs : List Command) (s : State) : (s.issue cs).resultValid = s.resultValid := rfl
@[simp] theorem State.issue_pDenomZero (cs : List Command) (s : State) : (s.issue cs).pDenomZero = s.pDenomZero := rfl
@[simp] theorem State.issue_hClampLo (cs : List Command) (s : State) : (s.issue cs).hClampLo = s.hClampLo := rfl
@[simp] theorem State.issue_hClampHi (cs : List Command) (s : State) : (s.issue cs).hClampHi = s.hClampHi := rfl
@[simp] theorem State.issue_faultCause (cs : List Command) (s : State) : (s.issue cs).faultCause = s.faultCause := rfl
@[simp] theorem State.issue_idx (cs : List Command) (s : State) : (s.issue cs).idx = s.idx := rfl
@[simp] theorem State.issue_inputs (cs : List Command) (s : State) : (s.issue cs).inputs = s.inputs ++ cs.map HostInput.command := rfl
@[simp] theorem State.issue_params (cs : List Command) (s : State) : (s.issue cs).params = s.params := rfl

/-! The three status views that are read off other fields. -/

@[simp] theorem State.calValid_eq (s : State) : s.calValid = s.cal.isSome := rfl
@[simp] theorem State.rawValid_eq (s : State) : s.rawValid = s.raw.isSome := rfl

theorem State.fault_eq_false_iff (s : State) : s.fault = false ↔ s.faultCause = 0x00#8 := by
  simp [State.fault]

theorem State.fault_eq_true_iff (s : State) : s.fault = true ↔ s.faultCause ≠ 0x00#8 := by
  simp [State.fault]

@[simp] theorem State.takeFault_fault (cause : FaultCause) (s : State) : (s.takeFault cause).fault = true := by
  cases cause <;> rfl

@[simp] theorem State.advance_fault (s : State) : s.advance.fault = s.fault := rfl
@[simp] theorem State.dropInput_fault (s : State) : s.dropInput.fault = s.fault := rfl

/-- No cause has the code 0, which stands for "no fault since reset" (60_exceptions.md R137). -/
theorem FaultCause.code_ne_zero (cause : FaultCause) : cause.code ≠ 0x00#8 := by
  cases cause <;> decide

end Sys2Proof.Machine
end

