-- ==== Sys2Proof/Laws/Compensate.lean ====
section
/-!
SUPPORT. What each field of a compensation is, one lemma per field, so that no later proof unfolds `compensate`.
-/

namespace Sys2Proof.Machine

variable (mode : PF32Mode) (c : Cal) (r : Raw)

theorem compensate_tfine : (compensate mode c r).tfine = tempFine r.adc_T c := by rw [compensate]

theorem compensate_t_int : (compensate mode c r).res.t_int = tempInt (tempFine r.adc_T c) := by rw [compensate]

theorem compensate_p_int : (compensate mode c r).res.p_int = presInt r.adc_P (tempFine r.adc_T c) c := by
  rw [compensate]

theorem compensate_h_int :
    (compensate mode c r).res.h_int = humInt (humUnclamped r.adc_H (tempFine r.adc_T c) c) := by
  rw [compensate]

theorem compensate_t_f32 : (compensate mode c r).res.t_f32 = cvtT (compensate mode c r).res.t_int := by
  rw [compensate]

theorem compensate_p_f32 : (compensate mode c r).res.p_f32 = cvtP mode (compensate mode c r).res.p_int := by
  rw [compensate]

theorem compensate_h_f32 : (compensate mode c r).res.h_f32 = cvtH (compensate mode c r).res.h_int := by
  rw [compensate]

theorem compensate_pDenomZero :
    (compensate mode c r).pDenomZero = flagPDenomZero (tempFine r.adc_T c) c := by
  rw [compensate]

theorem compensate_hClampLo :
    (compensate mode c r).hClampLo = flagHClampLo (humUnclamped r.adc_H (tempFine r.adc_T c) c) := by
  rw [compensate]

theorem compensate_hClampHi :
    (compensate mode c r).hClampHi = flagHClampHi (humUnclamped r.adc_H (tempFine r.adc_T c) c) := by
  rw [compensate]

end Sys2Proof.Machine
end

