-- ==== Sys2Proof/Laws/Decode.lean ====
section
/-!
SUPPORT. The small lemmas of the decoder's parts, so that no later proof unfolds them.
-/

namespace Sys2Proof

theorem imageOf_toList {n : Nat} (v : Vector Byte n) : imageOf n v.toList = some v := by
  unfold imageOf
  rw [dif_pos v.length_toList]
  rfl

theorem imageOf_eq_some_iff {n : Nat} (p : List Byte) (v : Vector Byte n) : imageOf n p = some v ↔ p = v.toList := by
  constructor
  · intro h
    unfold imageOf at h
    split at h
    · cases h
      rfl
    · cases h
  · rintro rfl
    exact imageOf_toList v

theorem imageOf_eq_none_iff {n : Nat} (p : List Byte) : imageOf n p = none ↔ p.length ≠ n := by
  unfold imageOf
  split <;> simp_all

@[simp] theorem opcodeLen_ldcal : opcodeLen 1#8 = some 32 := by decide
@[simp] theorem opcodeLen_ldraw : opcodeLen 2#8 = some 8 := by decide
@[simp] theorem opcodeLen_comp : opcodeLen 3#8 = some 0 := by decide
@[simp] theorem opcodeLen_invcal : opcodeLen 4#8 = some 0 := by decide

@[simp] theorem nextCommand_nil : nextCommand [] = none := rfl

theorem nextCommand_cons (op : Byte) (rest : List Byte) :
    nextCommand (op :: rest) =
      some ({ opcode := op, payload := rest.take ((opcodeLen op).getD 0) }, rest.drop ((opcodeLen op).getD 0)) :=
  rfl

/-- Everything the decoder of a pair can answer. -/
theorem decodeCommand_cases (c : Command) :
    (∃ img, c = encodeCommand (.ldcal img) ∧ decodeCommand c = .ok (.ldcal img))
      ∨ (∃ img, c = encodeCommand (.ldraw img) ∧ decodeCommand c = .ok (.ldraw img))
      ∨ (c = encodeCommand .comp ∧ decodeCommand c = .ok .comp)
      ∨ (c = encodeCommand .invcal ∧ decodeCommand c = .ok .invcal)
      ∨ (∃ n, opcodeLen c.opcode = some n ∧ c.payload.length ≠ n ∧ decodeCommand c = .error .badLength)
      ∨ (opcodeLen c.opcode = none ∧ decodeCommand c = .error .illegalCommand) := by
  obtain ⟨op, p⟩ := c
  by_cases h1 : op = 0x01#8
  · subst h1
    by_cases hp : p.length = 32
    · exact .inl ⟨⟨⟨p⟩, hp⟩, rfl, by simp [decodeCommand, imageOf, hp]⟩
    · simp [decodeCommand, imageOf, hp, encodeCommand, Command.mk.injEq]
  by_cases h2 : op = 0x02#8
  · subst h2
    by_cases hp : p.length = 8
    · exact .inr (.inl ⟨⟨⟨p⟩, hp⟩, rfl, by simp [decodeCommand, imageOf, hp]⟩)
    · simp [decodeCommand, imageOf, hp, encodeCommand, Command.mk.injEq]
  by_cases h3 : op = 0x03#8
  · subst h3
    cases p <;> simp [decodeCommand, encodeCommand, Command.mk.injEq]
  by_cases h4 : op = 0x04#8
  · subst h4
    cases p <;> simp [decodeCommand, encodeCommand, Command.mk.injEq]
  · simp [decodeCommand, opcodeLen, h1, h2, h3, h4]

@[simp] theorem encode_eq (i : Instr) : encode i = (encodeCommand i).opcode :: (encodeCommand i).payload := rfl

end Sys2Proof
end

