-- ==== Sys2Proof/Laws/Float32.lean ====
section
/-!
SUPPORT. What the rounding of a quotient to a natural number does, case by case (00_scope.md R16).
-/

namespace Sys2Proof.Machine

theorem roundHalfEven_cases (num den : Nat) :
    (2 * (num % den) < den ∧ roundHalfEven num den = num / den)
      ∨ (den < 2 * (num % den) ∧ roundHalfEven num den = num / den + 1)
      ∨ (2 * (num % den) = den ∧ num / den % 2 = 0 ∧ roundHalfEven num den = num / den)
      ∨ (2 * (num % den) = den ∧ num / den % 2 = 1 ∧ roundHalfEven num den = num / den + 1) := by
  unfold roundHalfEven
  simp only
  split
  · exact .inl ⟨‹_›, rfl⟩
  · split
    · exact .inr (.inl ⟨‹_›, rfl⟩)
    · rcases Nat.mod_two_eq_zero_or_one (num / den) with h | h <;> rw [h] <;> omega

/-- On a tie the result is even. -/
theorem roundHalfEven_even_of_tie {num den : Nat} (h : 2 * (num % den) = den) : roundHalfEven num den % 2 = 0 := by
  rcases roundHalfEven_cases num den with ⟨h', _⟩ | ⟨h', _⟩ | ⟨_, he, e⟩ | ⟨_, he, e⟩ <;> omega

theorem roundHalfEven_bounds (num den : Nat) :
    num / den ≤ roundHalfEven num den ∧ roundHalfEven num den ≤ num / den + 1 := by
  rcases roundHalfEven_cases num den with ⟨_, e⟩ | ⟨_, e⟩ | ⟨_, _, e⟩ | ⟨_, _, e⟩ <;> omega

end Sys2Proof.Machine
end

