-- ==== Sys2Proof/Laws/PerInstr.lean ====
section
/-!
SUPPORT. Statements for all instructions, one lemma per constructor (LAWS.json, "per_instruction"). CommandForm: the
pair an instruction is passes the check of 30_encoding.md R62, and its bytes are as many as its format has (R61, R70).
-/

namespace Sys2Proof.Laws.CommandForm

/-- The form of an instruction's command (30_encoding.md R61, R62, R70). -/
def Statement (i : Instr) : Prop :=
  (encodeCommand i).wellFormed = true
    ∧ opcodeLen (encodeCommand i).opcode = some (encodeCommand i).payload.length
    ∧ (encode i).length ≤ longestCommand

theorem ldcal (img : Vector Byte 32) : Statement (.ldcal img) := by
  simp [Statement, encodeCommand, Command.wellFormed, encode, commandBytes, longestCommand, opcodeLen]

theorem ldraw (img : Vector Byte 8) : Statement (.ldraw img) := by
  simp [Statement, encodeCommand, Command.wellFormed, encode, commandBytes, longestCommand, opcodeLen]

theorem comp : Statement .comp := by
  simp [Statement, encodeCommand, Command.wellFormed, encode, commandBytes, longestCommand, opcodeLen]

theorem invcal : Statement .invcal := by
  simp [Statement, encodeCommand, Command.wellFormed, encode, commandBytes, longestCommand, opcodeLen]

end Sys2Proof.Laws.CommandForm
end

