-- ==== Sys2Proof/Laws/Registers.lean ====
section
/-!
SUPPORT. What a host read depends on: the calibration file for the calibration registers, the raw file for the raw
registers, TFINE and the results for the result registers (10_state.md R39, R41).
-/

namespace Sys2Proof.Machine

theorem hostRead_congr_cal {s t : State} {r : Register} (hr : r.inCal = true) (h : t.cal = s.cal) :
    t.hostRead r = s.hostRead r := by
  cases r <;> first | contradiction | exact congrArg (Option.map _) h

theorem hostRead_congr_raw {s t : State} {r : Register} (hr : r.inRaw = true) (h : t.raw = s.raw) :
    t.hostRead r = s.hostRead r := by
  cases r <;> first | contradiction | exact congrArg (Option.map _) h

theorem hostRead_congr_results {s t : State} {r : Register} (hr : r.inResults = true) (htf : t.tfine = s.tfine)
    (h : t.res = s.res) : t.hostRead r = s.hostRead r := by
  cases r <;> first | contradiction | exact congrArg (Option.map _) h | exact htf

/-- A register other than STATUS and FAULT_CAUSE depends on the four files only. -/
theorem hostRead_congr {s t : State} {r : Register} (h1 : r ≠ .status) (h2 : r ≠ .faultCause) (hc : t.cal = s.cal)
    (hr : t.raw = s.raw) (htf : t.tfine = s.tfine) (hres : t.res = s.res) : t.hostRead r = s.hostRead r := by
  cases r <;>
    first
    | contradiction
    | exact congrArg (Option.map _) hc
    | exact congrArg (Option.map _) hr
    | exact congrArg (Option.map _) hres
    | exact htf

theorem hostRead_isSome_cal (s : State) {r : Register} (hr : r.inCal = true) :
    (s.hostRead r).isSome = s.cal.isSome := by
  cases r <;> first | contradiction | exact Option.isSome_map

theorem hostRead_isSome_raw (s : State) {r : Register} (hr : r.inRaw = true) :
    (s.hostRead r).isSome = s.raw.isSome := by
  cases r <;> first | contradiction | exact Option.isSome_map

@[simp] theorem hostRead_status (s : State) : s.hostRead .status = some s.status := rfl
@[simp] theorem hostRead_faultCause (s : State) : s.hostRead .faultCause = some s.faultCause := rfl

end Sys2Proof.Machine
end

