-- ==== Sys2Proof/Laws/Step.lean ====
section
/-!
SUPPORT. Everything a meaning, the common entry step and a step can do, said once each. Later proofs cite these cases
and unfold none of the functions.
-/

namespace Sys2Proof.Machine

theorem execLdcal_cases (img : Vector Byte 32) (s : State) :
    (∃ c, s.cal = some c ∧ execLdcal img s = .next s)
      ∨ (s.cal = none ∧ execLdcal img s = .next (s.loadCal (decodeCal img))) := by
  unfold execLdcal
  cases h : s.cal <;> simp [h]

theorem execLdraw_eq (img : Vector Byte 8) (s : State) :
    execLdraw img s = .next (s.loadRaw (decodeRaw s.params.adcHOrder img)) := rfl

theorem execInvcal_cases (s : State) :
    (s.cal = none ∧ execInvcal s = .next s) ∨ (∃ c, s.cal = some c ∧ execInvcal s = .next s.clearCal) := by
  unfold execInvcal
  cases h : s.cal <;> simp [h]

theorem execComp_cases (s : State) :
    (s.cal = none ∧ execComp s = .next (s.takeFault .calNotValid))
      ∨ (∃ c, s.cal = some c ∧ s.raw = none ∧ execComp s = .next (s.takeFault .rawNotLoaded))
      ∨ (∃ c r, s.cal = some c ∧ s.raw = some r ∧
          execComp s = .next (s.writeResult (compensate s.params.pF32Mode c r))) := by
  unfold execComp
  cases hc : s.cal with
  | none => simp
  | some c => cases hr : s.raw <;> simp

/-- The common entry step: ignored, rejected or dispatched (60_exceptions.md R140). -/
theorem stepCommand_cases (c : Command) (s : State) :
    (s.fault = true ∧ stepCommand c s = .next s.advance)
      ∨ (∃ r, s.fault = false ∧ decodeCommand c = .error r ∧
          stepCommand c s = .next (s.advance.takeFault (rejectCause r)))
      ∨ (∃ i, s.fault = false ∧ decodeCommand c = .ok i ∧ stepCommand c s = exec i s.advance) := by
  unfold stepCommand
  cases hf : s.fault with
  | true => simp [hf]
  | false => cases hd : decodeCommand c <;> simp [hf]

/-- A step takes the host's next input, if there is one. -/
theorem step_cases (s : State) :
    (s.inputs = [] ∧ step s = .next s)
      ∨ (∃ rest, s.inputs = .reset :: rest ∧ step s = .next s.dropInput.hostReset)
      ∨ (∃ c rest, s.inputs = .command c :: rest ∧ step s = stepCommand c s.dropInput) := by
  unfold step stepInput
  cases h : s.inputs with
  | nil => simp
  | cons a rest => cases a <;> simp

/-- What the next state of a step can be, in one list: idle, reset, ignored, rejected, or the instruction's own. -/
theorem step_next_cases {s t : State} (h : step s = .next t) :
    (s.inputs = [] ∧ t = s)
      ∨ (∃ rest, s.inputs = .reset :: rest ∧ t = { State.reset with inputs := rest, params := s.params })
      ∨ (∃ c rest, s.inputs = .command c :: rest ∧
          ((s.faultCause ≠ 0#8 ∧ t = { s with inputs := rest, idx := s.idx + 1 })
            ∨ (∃ r, s.faultCause = 0#8 ∧ decodeCommand c = .error r ∧
                t = { s with inputs := rest, idx := s.idx + 1, faultCause := (rejectCause r).code })
            ∨ (∃ i, s.faultCause = 0#8 ∧ decodeCommand c = .ok i ∧
                exec i { s with inputs := rest, idx := s.idx + 1 } = .next t))) := by
  rcases step_cases s with ⟨hi, hs⟩ | ⟨rest, hi, hs⟩ | ⟨c, rest, hi, hs⟩
  · rw [hs] at h
    cases h
    exact .inl ⟨hi, rfl⟩
  · rw [hs] at h
    cases h
    exact .inr (.inl ⟨rest, hi, by simp [State.hostReset, State.dropInput, hi]⟩)
  · have hd : s.dropInput = { s with inputs := rest } := by simp [State.dropInput, hi]
    refine .inr (.inr ⟨c, rest, hi, ?_⟩)
    rw [hs, hd] at h
    rcases stepCommand_cases c { s with inputs := rest } with ⟨hf, e⟩ | ⟨r, hf, hd, e⟩ | ⟨i, hf, hd, e⟩ <;> rw [e] at h
    · cases h
      exact .inl ⟨by simpa [State.fault] using hf, rfl⟩
    · cases h
      exact .inr (.inl ⟨r, by simpa [State.fault] using hf, hd, rfl⟩)
    · exact .inr (.inr ⟨i, by simpa [State.fault] using hf, hd, h⟩)

end Sys2Proof.Machine
end

