-- ==== Sys2Proof/Tests/Slice0.lean ====
section
/-!
SUPPORT. Tests and witnesses. Every expected value is one that 95_test_vectors.md or a rule of spec/ writes out; the
comment of a test names it. A witness (test_witness_*) shows a state and operands that meet a statement's hypotheses, for
each of its clauses, at a boundary where there is one.
-/

namespace Sys2Proof.Tests

open Sys2Proof Sys2Proof.Machine

/-! ## Helpers -/

/-- The next state of an outcome. -/
def after (o : Host.Outcome State Fault Refusal) : Option State :=
  match o with
  | .next s => some s
  | .fault _ => none
  | .refused _ => none

theorem next_of_after {o : Host.Outcome State Fault Refusal} {t : State} (h : after o = some t) : o = .next t := by
  cases o with
  | next s => exact congrArg _ (Option.some.inj h)
  | fault r => cases r
  | refused r => cases h

/-- The image of CAL_TYP (95_test_vectors.md section 0). -/
def calTypImage : Vector Byte 32 :=
  #v[0x70, 0x6B, 0x43, 0x67, 0x18, 0xFC, 0x7D, 0x8E, 0x43, 0xD6, 0xD0, 0x0B, 0x27, 0x0B, 0x8C, 0x00,
     0xF9, 0xFF, 0x8C, 0x3C, 0xF8, 0xC6, 0x70, 0x17, 0x4B, 0x6A, 0x01, 0x00, 0x13, 0x29, 0x03, 0x1E]

/-- CAL_TYP (95_test_vectors.md section 0). -/
def calTyp : Cal where
  dig_T1 := 27504
  dig_T2 := 26435
  dig_T3 := -1000
  dig_P1 := 36477
  dig_P2 := -10685
  dig_P3 := 3024
  dig_P4 := 2855
  dig_P5 := 140
  dig_P6 := -7
  dig_P7 := 15500
  dig_P8 := -14600
  dig_P9 := 6000
  dig_H1 := 75
  dig_H2 := 362
  dig_H3 := 0
  dig_H4 := 313
  dig_H5 := 50
  dig_H6 := 30

/-- The image of RAW_TYP (95_test_vectors.md section 0). -/
def rawTypImage : Vector Byte 8 := #v[0x65, 0x5A, 0xC0, 0x7E, 0xED, 0x00, 0x75, 0x30]

/-- RAW_TYP (95_test_vectors.md section 0). -/
def rawTyp : Raw where
  adc_P := 415148
  adc_T := 519888
  adc_H := 30000

/-- The results of program A (95_test_vectors.md section 3). -/
def resTyp : Res where
  t_int := 2508
  p_int := 25767233
  h_int := 56317
  t_f32 := 0x41C8A3D7
  p_f32 := 0x447BA215
  h_f32 := 0x425BFD00

/-- The state "typ" of 95_test_vectors.md section 2.2: LDCAL CAL_TYP taken. -/
def typ : State := { State.reset with cal := some calTyp, idx := 1 }

/-- Both files loaded, nothing computed yet: program A before its COMP. -/
def loaded : State := { State.reset with cal := some calTyp, raw := some rawTyp, idx := 2 }

/-- The state "full" of 95_test_vectors.md section 2.2: the end state of program A. -/
def full : State :=
  { State.reset with
    cal := some calTyp, raw := some rawTyp, tfine := some 128422, res := some resTyp, resultValid := true, idx := 3 }

/-- The state after vector X1: a COMP on an engine just reset. -/
def faulted : State := { State.reset with faultCause := 0x03#8, idx := 1 }

/-- A state with one command issued. -/
def asked (s : State) (opcode : Byte) (payload : List Byte) : State :=
  { s with inputs := [.command { opcode := opcode, payload := payload }] }

/-! ## The well-formedness check refuses each ill-formed pair (30_encoding.md R62, R70) -/

theorem test_wf_refuses_opcode_00 : Command.wellFormed { opcode := 0x00, payload := [] } = false := by decide
theorem test_wf_refuses_opcode_05 :
    Command.wellFormed { opcode := 0x05, payload := calTypImage.toList } = false := by decide
theorem test_wf_refuses_opcode_ff : Command.wellFormed { opcode := 0xFF, payload := [] } = false := by decide
theorem test_wf_refuses_ldcal_31 :
    Command.wellFormed { opcode := 0x01, payload := calTypImage.toList.take 31 } = false := by decide
theorem test_wf_refuses_ldcal_33 :
    Command.wellFormed { opcode := 0x01, payload := calTypImage.toList ++ [0x00] } = false := by decide
theorem test_wf_refuses_ldraw_7 :
    Command.wellFormed { opcode := 0x02, payload := rawTypImage.toList.take 7 } = false := by decide
theorem test_wf_refuses_ldraw_9 :
    Command.wellFormed { opcode := 0x02, payload := rawTypImage.toList ++ [0x00] } = false := by decide
theorem test_wf_refuses_comp_1 : Command.wellFormed { opcode := 0x03, payload := [0x00] } = false := by decide
theorem test_wf_refuses_invcal_1 : Command.wellFormed { opcode := 0x04, payload := [0x00] } = false := by decide
theorem test_wf_accepts_each :
    Command.wellFormed { opcode := 0x01, payload := calTypImage.toList } = true
      ∧ Command.wellFormed { opcode := 0x02, payload := rawTypImage.toList } = true
      ∧ Command.wellFormed { opcode := 0x03, payload := [] } = true
      ∧ Command.wellFormed { opcode := 0x04, payload := [] } = true := by decide

/-! ## Decoding words written out from the spec (30_encoding.md R63 to R66, R79, R80) -/

/-- EV6: the 33 bytes of R80. -/
theorem test_decode_ldcal_word :
    decode [0x01, 0x70, 0x6B, 0x43, 0x67, 0x18, 0xFC, 0x7D, 0x8E, 0x43, 0xD6, 0xD0, 0x0B, 0x27, 0x0B, 0x8C, 0x00,
        0xF9, 0xFF, 0x8C, 0x3C, 0xF8, 0xC6, 0x70, 0x17, 0x4B, 0x6A, 0x01, 0x00, 0x13, 0x29, 0x03, 0x1E]
      = some (.ok (.ldcal calTypImage), []) := rfl

/-- EV3: the 9 bytes of R79; a byte after them is the next command's. -/
theorem test_decode_ldraw_word :
    decode [0x02, 0x65, 0x5A, 0xC0, 0x7E, 0xED, 0x00, 0x75, 0x30, 0x03] = some (.ok (.ldraw rawTypImage), [0x03]) := rfl

/-- EV1. -/
theorem test_decode_comp_word : decode [0x03] = some (.ok .comp, []) := rfl

/-- EV2. -/
theorem test_decode_invcal_word : decode [0x04] = some (.ok .invcal, []) := rfl

/-- EV3 as a table word: byte 0 is bits 7..0. -/
theorem test_decode_table_word : decodeTableWord 72 0x307500ED7EC05A6502 = some (.ldraw rawTypImage) := by
  decide

/-- Program E's stream: an illegal opcode is one byte, and COMP follows it. -/
theorem test_stream_with_illegal_opcode :
    (commandsOf [0x04, 0x00, 0x03]).map (fun c => c.opcode) = [0x04, 0x00, 0x03] := by decide

/-- A stream that ends inside a payload (R73). -/
theorem test_stream_that_ends_early : decode [0x02, 0x65, 0x5A] = some (.error .badLength, []) := rfl

/-! ## Operand forms (95_test_vectors.md section 2.1) -/

/-- DV1 to DV8. -/
theorem test_sixteen_bit_decoders :
    (signed16 0x34 0x12).toInt = 4660 ∧ (signed16 0xFF 0xFF).toInt = -1 ∧ (signed16 0x00 0x80).toInt = -32768
      ∧ (signed16 0xFF 0x7F).toInt = 32767 ∧ (signed16 0x01 0x00).toInt = 1
      ∧ (unsigned16 0xFF 0xFF).toNat = 65535 ∧ (unsigned16 0x00 0x80).toNat = 32768
      ∧ (unsigned16 0x34 0x12).toNat = 4660 := by decide

/-- DV9 to DV11. -/
theorem test_packed_twelve_bits :
    (packH4 0xAB 0xC7).toInt = -1353 ∧ (packH5 0x12 0xC7).toInt = 300
      ∧ (packH4 0x7F 0xF0).toInt = 2032 ∧ (packH5 0x7F 0xF0).toInt = 2047
      ∧ (packH4 0x80 0x00).toInt = -2048 ∧ (packH5 0x80 0x00).toInt = -2048 := by decide

/-- DV17 to DV19: both byte orders, and the discarded low nibbles. -/
theorem test_measurement_images :
    decodeRaw .be rawTypImage = rawTyp
      ∧ decodeRaw .le rawTypImage = { rawTyp with adc_H := 12405 }
      ∧ decodeRaw .be #v[0x65, 0x5A, 0xCF, 0x7E, 0xED, 0x0F, 0x75, 0x30] = rawTyp := by decide

/-! ## The stages (95_test_vectors.md sections 2.3 to 2.6) -/

/-- T2, T3 and T6: t_fine of the vendor's example, and both products wrapping. -/
theorem test_temperature_stage :
    (tempFine 519888 calTyp).toInt = 128422
      ∧ (tempFine 0xFFFFF { calTyp with dig_T1 := 0, dig_T2 := 32767, dig_T3 := 0 }).toInt = -80
      ∧ (tempFine 0xFFFFF { calTyp with dig_T1 := 0, dig_T2 := -32768, dig_T3 := -32768 }).toInt = 80 := by
  decide

/-- P4, P9 and P10: truncating division, a wrapped numerator, and a P_INT above 2^32. -/
theorem test_pressure_stage :
    (presInt 0xFFFFF 128422 calTyp).toInt = -1697504
      ∧ (presInt 0 128422 { calTyp with dig_P4 := -32768 }).toInt = -48086620
      ∧ (presInt 415148 128422 { calTyp with dig_P1 := 1 }).toInt = 913983537972 := by
  decide

/-- H2, H7 and H8: v before the clamp, with the wrap of H8. -/
theorem test_humidity_stage :
    (humUnclamped 0 128422 calTyp).toInt = -486364973
      ∧ (humUnclamped 30000 128422 { calTyp with
          dig_H2 := -32768, dig_H3 := 255, dig_H4 := -2048, dig_H5 := -2048, dig_H6 := -128 }).toInt = 1363067516
      ∧ (humUnclamped 65535 128422 { calTyp with dig_H4 := -2048 }).toInt = -1482521572 := by
  decide

/-- CV10, CV12 and CV14, and CV2 and CV17. -/
theorem test_conversions :
    cvtP .roundOnce (-255) = 0xBC233333 ∧ cvtP .intDivFirst (-255) = 0
      ∧ cvtP .roundOnce 16777217 = 0x4423D70B ∧ cvtP .f32Chain 16777217 = 0x4423D70A
      ∧ cvtP .roundOnce (BitVec.intMin 64) = 0xD7A3D70A
      ∧ cvtT (-23040) = 0xC3666666 ∧ cvtH 1023 = 0x3F7FC000 := by
  decide

/-! ## One step of each instruction (95_test_vectors.md section 2.2) -/

/-- X17: LDCAL on an engine just reset. -/
theorem test_ldcal_loads : after (exec (.ldcal calTypImage) State.reset) = some { typ with idx := 0 } := by
  decide

/-- X9: LDCAL while CAL_VALID = 1. -/
theorem test_ldcal_no_op :
    after (exec (.ldcal (calTypImage.set 6 0x00)) full) = some full := by
  decide

/-- X16: LDRAW does not need CAL_VALID. -/
theorem test_ldraw_without_calibration :
    after (exec (.ldraw rawTypImage) State.reset) = some { State.reset with raw := some rawTyp } := by
  decide

/-- X13: LDRAW leaves the results, stale. -/
theorem test_ldraw_keeps_results :
    after (exec (.ldraw (rawTypImage.set 7 0x31)) full)
      = some { full with raw := some { rawTyp with adc_H := 30001 }, resultValid := false } := by
  decide

/-- Program A's COMP: STATUS 0x07. -/
theorem test_comp_results : after (exec .comp loaded) = some { full with idx := 2 } ∧ full.status = 0x07 := by
  decide

/-- X2: COMP without a raw sample: STATUS 0x81. -/
theorem test_comp_raw_not_loaded :
    after (exec .comp typ) = some { typ with faultCause := 0x04#8 }
      ∧ ({ typ with faultCause := 0x04#8 } : State).status = 0x81 := by
  decide

/-- X12: INVCAL leaves the results, stale: STATUS 0x02. -/
theorem test_invcal_empties :
    after (exec .invcal full) = some { full with cal := none, resultValid := false }
      ∧ ({ full with cal := none, resultValid := false } : State).status = 0x02 := by
  decide

/-- X10: INVCAL while CAL_VALID = 0. -/
theorem test_invcal_no_op : after (exec .invcal State.reset) = some State.reset := by decide

/-- X7: the length is checked before the LDCAL no-op test. -/
theorem test_entry_bad_length :
    after (step (asked typ 0x01 (calTypImage.toList.take 31))) = some { typ with idx := 2, faultCause := 0x02#8 } := by
  decide

/-- X15: a faulted engine ignores a command. -/
theorem test_entry_ignored :
    after (step (asked faulted 0x00 [])) = some { faulted with idx := 2 } := by
  decide

/-- EV8: MEASURE in the field form, from its text. -/
theorem test_assemble_measure :
    (assemble .be "MEASURE P=415148, T=519888, H=30000 ; one sample".toList).map encodeProgram
      = some [0x02, 0x65, 0x5A, 0xC0, 0x7E, 0xED, 0x00, 0x75, 0x30, 0x03] := by
  decide

/-! ## Witnesses -/

theorem test_witness_WellFormedPairsAreTheInstructions :
    (∃ c : Command, c.wellFormed = true)
      ∧ (∃ (c : Command) (s : State) (rest : List HostInput),
          c.wellFormed = false ∧ c.opcode = 0x05 ∧ s.faultCause = 0#8 ∧ s.inputs = .command c :: rest)
      ∧ ∃ (c : Command) (s : State) (rest : List HostInput),
          c.wellFormed = false ∧ c.opcode = 0x04 ∧ s.faultCause = 0#8 ∧ s.inputs = .command c :: rest :=
  ⟨⟨{ opcode := 0x03, payload := [] }, rfl⟩,
    ⟨{ opcode := 0x05, payload := [] }, asked State.reset 0x05 [], [], by decide⟩,
    ⟨{ opcode := 0x04, payload := [0x00] }, asked State.reset 0x04 [0x00], [], by decide⟩⟩

theorem test_witness_ArithmeticWrapsAsTwosComplement :
    ∃ (n : Nat) (z y : Int), 0 < n ∧ -(2 ^ (n - 1)) ≤ y ∧ y < 2 ^ (n - 1) ∧ (y - z) % 2 ^ n = 0 ∧ y ≠ z :=
  ⟨32, 2 ^ 31, -(2 ^ 31), by decide⟩

theorem test_witness_ShiftsFloorAndDivisionTruncates :
    (∃ n k : Nat, (n = 32 ∨ n = 64) ∧ k < n ∧ k = 63)
      ∧ (∃ a b : S64, b.toInt ≠ 0 ∧ ¬(a.toInt = -2 ^ 63 ∧ b.toInt = -1) ∧ a.toInt = -7 ∧ b.toInt = 2)
      ∧ ∃ a b : S64, a.toInt = -2 ^ 63 ∧ b.toInt = -1 :=
  ⟨⟨64, 63, by decide⟩, ⟨BitVec.ofInt 64 (-7), 2, by decide⟩,
    ⟨BitVec.intMin 64, BitVec.ofInt 64 (-1), by decide⟩⟩

/-- A tie: 2^24 + 1 lies halfway between 2^24 and 2^24 + 2. -/
theorem test_witness_RoundingIsNearestTiesToEven :
    ∃ (n : Int) (d : Nat) (b : F32), 0 < d ∧ n.natAbs < (2 ^ 128 - 2 ^ 103) * d ∧ f32Finite b = true
      ∧ (f32Num (rne32 n d) * d - n * 2 ^ 149).natAbs = (f32Num b * d - n * 2 ^ 149).natAbs
      ∧ f32Num b ≠ f32Num (rne32 n d) :=
  ⟨16777217, 1, 0x4B800001, by decide⟩

theorem test_witness_LdcalLoadsOrDoesNothing : State.reset.cal = none ∧ full.cal ≠ none := by decide

theorem test_witness_InvcalEmptiesOrDoesNothing : full.cal ≠ none ∧ State.reset.cal = none := by decide

theorem test_witness_LoadFamilyFrame :
    (∃ t, exec (.ldcal calTypImage) State.reset = .next t) ∧ (∃ t, exec (.ldraw rawTypImage) full = .next t)
      ∧ (∃ t, exec .invcal full = .next t) ∧ Instr.invcal ≠ .comp :=
  ⟨⟨{ typ with idx := 0 }, next_of_after test_ldcal_loads⟩, ⟨_, rfl⟩,
    ⟨{ full with cal := none, resultValid := false }, next_of_after test_invcal_empties.1⟩, by decide⟩

theorem test_witness_CompFaultsOnItsPreconditions : State.reset.cal = none ∧ typ.cal ≠ none ∧ typ.raw = none := by
  decide

theorem test_witness_CompWritesItsResults :
    State.reset.cal = none ∧ (typ.cal ≠ none ∧ typ.raw = none) ∧ loaded.cal = some calTyp ∧ loaded.raw = some rawTyp := by
  decide

/-- P2: dig_P1 = 0. The second clause also has a set with dig_P1 = 1 whose product is negative, so not in the range. -/
theorem test_witness_ZeroDenominatorGivesZeroPressure :
    ∃ (s : State) (c : Cal) (r : Raw), s.cal = some c ∧ s.raw = some r
      ∧ presVarP1 (tempFine r.adc_T c) c = 0#64 ∧ c.dig_P1 = 0#16 :=
  ⟨{ loaded with cal := some { calTyp with dig_P1 := 0 } }, { calTyp with dig_P1 := 0 }, rawTyp, rfl, rfl, by decide +kernel, rfl⟩

theorem test_witness_ConversionsAreNeverSpecial :
    ∃ p q : S64, (-255 ≤ p.toInt ∧ p.toInt ≤ 255 ∧ p.toInt = -255) ∧ (-255 ≤ q.toInt ∧ q.toInt ≤ 255 ∧ q.toInt = 255) :=
  ⟨BitVec.ofInt 64 (-255), 255, by decide⟩

theorem test_witness_HumidityConversionIsExact : ∃ h : BitVec 32, h.toNat < 2 ^ 24 ∧ h.toNat = 2 ^ 24 - 1 :=
  ⟨0xFFFFFF, by decide⟩

theorem test_witness_CompDependsOnItsInputsOnly :
    loaded.cal = full.cal ∧ loaded.raw = full.raw ∧ loaded.params.pF32Mode = full.params.pF32Mode
      ∧ loaded.cal ≠ none ∧ loaded.raw ≠ none ∧ loaded ≠ full := by decide

theorem test_witness_CompFrame :
    (exec .comp loaded = .next { full with idx := 2 } ∧ loaded.cal ≠ none ∧ loaded.raw ≠ none)
      ∧ (exec .comp typ = .next { typ with faultCause := 0x04#8 } ∧ typ.raw = none)
      ∧ ∃ t, exec .comp State.reset = .next t ∧ State.reset.cal = none :=
  ⟨⟨next_of_after test_comp_results.1, by decide, by decide⟩, ⟨next_of_after test_comp_raw_not_loaded.1, by decide⟩,
    ⟨_, rfl, by decide⟩⟩

theorem test_witness_StepRunsTheDecodedCommand :
    (∃ (s : State) (c : Command) (rest : List HostInput), s.inputs = .command c :: rest ∧ s.faultCause ≠ 0#8)
      ∧ (∃ (s : State) (c : Command) (rest : List HostInput),
          s.inputs = .command c :: rest ∧ s.faultCause = 0#8 ∧ opcodeLen c.opcode = none)
      ∧ (∃ (s : State) (c : Command) (rest : List HostInput) (n : Nat),
          s.inputs = .command c :: rest ∧ s.faultCause = 0#8 ∧ opcodeLen c.opcode = some n ∧ c.payload.length ≠ n)
      ∧ ∃ (s : State) (c : Command) (rest : List HostInput) (n : Nat),
          s.inputs = .command c :: rest ∧ s.faultCause = 0#8 ∧ opcodeLen c.opcode = some n ∧ c.payload.length = n :=
  ⟨⟨asked faulted 0x03 [], { opcode := 0x03, payload := [] }, [], by decide⟩,
    ⟨asked typ 0x05 [], { opcode := 0x05, payload := [] }, [], by decide⟩,
    ⟨asked typ 0x03 [0x00], { opcode := 0x03, payload := [0x00] }, [], 0, by decide⟩,
    ⟨asked loaded 0x03 [], { opcode := 0x03, payload := [] }, [], 0, by decide⟩⟩

theorem test_witness_PlacedWordRunsNext :
    ∃ (s : State) (nbits w : Nat) (i : Instr), s.faultCause = 0#8 ∧ decodeTableWord nbits w = some i :=
  ⟨State.reset, 8, 0x03, .comp, by decide⟩

/-- One command for each branch: ignored, illegal, wrong length, the two COMP causes, none. -/
theorem test_witness_FirstCauseInPriorityIsRecorded :
    ((asked faulted 0x03 []).inputs = [.command { opcode := 0x03, payload := [] }] ∧ (asked faulted 0x03 []).faultCause ≠ 0#8)
      ∧ (asked typ 0x05 [0x00]).inputs = [.command { opcode := 0x05, payload := [0x00] }]
      ∧ (asked State.reset 0x03 [0x00]).inputs = [.command { opcode := 0x03, payload := [0x00] }]
      ∧ ((asked State.reset 0x03 []).inputs = [.command { opcode := 0x03, payload := [] }] ∧ State.reset.cal = none)
      ∧ ((asked typ 0x03 []).inputs = [.command { opcode := 0x03, payload := [] }] ∧ typ.raw = none)
      ∧ (asked loaded 0x03 []).inputs = [.command { opcode := 0x03, payload := [] }] := by decide

/-- X1: a COMP on an engine just reset. -/
theorem test_witness_FaultsArePrecise :
    step (asked State.reset 0x03 []) = .next faulted ∧ (asked State.reset 0x03 []).faultCause = 0#8
      ∧ faulted.faultCause ≠ 0#8 :=
  ⟨next_of_after (by decide), by decide, by decide⟩

theorem test_witness_FaultedEngineIgnoresEveryCommand :
    ∃ (cs : List Command) (s : State) (rest : List HostInput), s.faultCause ≠ 0#8
      ∧ s.inputs = cs.map HostInput.command ++ rest ∧ cs.length = 2 ∧ rest = [.reset] :=
  ⟨[encodeCommand .invcal, encodeCommand .comp],
    { faulted with inputs := [.command (encodeCommand .invcal), .command (encodeCommand .comp), .reset] }, [.reset],
    by decide⟩

theorem test_witness_OnlyResetClearsAFault :
    step { faulted with inputs := [.reset] } = .next State.reset ∧ faulted.faultCause ≠ 0#8
      ∧ State.reset.faultCause ≠ faulted.faultCause :=
  ⟨next_of_after (by decide), by decide, by decide⟩

theorem test_witness_HostResetGivesTheResetState :
    ({ full with inputs := [.reset] } : State).inputs = .reset :: [] := by decide

theorem test_witness_ResetStateReads : Register.dig_T1 ≠ .status ∧ Register.dig_T1 ≠ .faultCause := by decide

/-- Program A's COMP as a step, from a state with every property. -/
theorem test_witness_StepKeepsTheInvariants :
    (asked loaded 0x03 []).Kept ∧ (asked loaded 0x03 []).InRange ∧ (asked loaded 0x03 []).CauseCoded
      ∧ step (asked loaded 0x03 []) = .next full :=
  ⟨by decide, by decide, by decide, next_of_after (by decide)⟩

/-- `loaded` has the property since RESULT_VALID = 0; `full` since its results are those of its files. -/
theorem test_witness_StepKeepsResultsCurrent :
    (asked loaded 0x03 []).Current ∧ step (asked loaded 0x03 []) = .next full ∧ (asked full 0x03 []).Current := by
  refine ⟨fun h => absurd h (by decide), next_of_after (by decide), fun _ => ⟨calTyp, rawTyp, rfl, rfl, ?_⟩⟩
  decide

theorem test_witness_OnlyCompWritesResults :
    (∃ t, step (asked full 0x04 []) = .next t)
      ∧ (∀ rest, (asked full 0x04 []).inputs ≠ .reset :: rest)
      ∧ (∀ c rest, (asked full 0x04 []).inputs = .command c :: rest → decodeCommand c ≠ .ok .comp)
      ∧ Register.tfine.inResults = true :=
  ⟨⟨{ full with cal := none, resultValid := false, idx := 4 }, next_of_after (by decide)⟩,
    fun _ h => by simp [asked] at h,
    fun c rest h => by
      have hc : HostInput.command { opcode := 0x04, payload := [] } = .command c := (List.cons.inj h).1
      rw [← HostInput.command.inj hc]
      simp [decodeCommand],
    by decide⟩

/-- One step for each case: reset, a loading LDCAL, an emptying INVCAL. -/
theorem test_witness_OnlyLoadAndInvalidateChangeCalibration :
    (step { typ with inputs := [.reset] } = .next State.reset ∧ State.reset.cal ≠ typ.cal)
      ∧ (step (asked State.reset 0x01 calTypImage.toList) = .next typ ∧ typ.cal ≠ State.reset.cal)
      ∧ step (asked typ 0x04 []) = .next { State.reset with idx := 2 } :=
  ⟨⟨next_of_after (by decide), by decide⟩, ⟨next_of_after (by decide), by decide⟩,
    next_of_after (by decide)⟩

theorem test_witness_OnlyLdrawAndResetChangeRaw :
    (step { loaded with inputs := [.reset] } = .next State.reset ∧ State.reset.raw ≠ loaded.raw)
      ∧ (step (asked typ 0x02 rawTypImage.toList) = .next loaded ∧ loaded.raw ≠ typ.raw) :=
  ⟨⟨next_of_after (by decide), by decide⟩, ⟨next_of_after (by decide), by decide⟩⟩

theorem test_witness_ParametersStayFixed : step (asked loaded 0x03 []) = .next full :=
  next_of_after (by decide)

theorem test_witness_IndexCountsEveryCommand :
    ∃ (s : State) (c : Command) (rest : List HostInput), s.inputs = .command c :: rest :=
  ⟨asked faulted 0xFF [], { opcode := 0xFF, payload := [] }, [], by decide⟩

theorem test_witness_StatusAfterEachCommand :
    (∃ t, exec (.ldcal calTypImage) full = .next t) ∧ (∃ t, exec (.ldraw rawTypImage) full = .next t)
      ∧ exec .invcal full = .next { full with cal := none, resultValid := false }
      ∧ exec .comp loaded = .next { full with idx := 2 } :=
  ⟨⟨_, rfl⟩, ⟨_, rfl⟩, next_of_after test_invcal_empties.1, next_of_after test_comp_results.1⟩

theorem test_witness_HostReadsFollowTheValidBits :
    Register.dig_H6.inCal = true ∧ Register.adc_H.inRaw = true
      ∧ (Register.status.inCal = false ∧ Register.status.inRaw = false ∧ Register.status.inResults = false) := by decide

theorem test_witness_BootOrderGivesResults :
    ∃ (img : Vector Byte 32) (sample : Vector Byte 8) (cs cs' : List Instr),
      cs = [.ldcal img, .ldraw sample, .comp] ∧ cs' = [.ldraw sample, .ldcal img, .comp] :=
  ⟨calTypImage, rawTypImage, _, _, rfl, rfl⟩

theorem test_witness_CompAfterInvcalFaults :
    ∃ (s : State) (between : List Instr) (rest : List HostInput), s.faultCause = 0#8
      ∧ (∀ i ∈ between, (∃ img, i = .ldraw img) ∨ i = .invcal)
      ∧ s.inputs = ((Instr.invcal :: between) ++ [Instr.comp]).map (HostInput.command ∘ encodeCommand) ++ rest
      ∧ between.length = 2 :=
  ⟨full.issue ([Instr.invcal, .ldraw rawTypImage, .invcal, .comp].map encodeCommand), [.ldraw rawTypImage, .invcal], [],
    rfl, by simp, rfl, rfl⟩

theorem test_witness_LaterInputsDoNotReachBack : full.inputs = [] := by decide

/-- A sensor with the right chip identity, whose LDCAL is issued to an engine that has just invalidated, with a further
command behind it; and a sensor with another identity. -/
theorem test_witness_DutifulOpenLoadsOnlyTheRightChip :
    ∃ (sensor other : Byte → Byte) (s : State) (rest : List HostInput), sensor 0xD0#8 = 0x60#8
      ∧ other 0xD0#8 ≠ 0x60#8 ∧ s.faultCause = 0#8 ∧ s.cal = none ∧ rest ≠ []
      ∧ s.inputs = (hostOpen sensor).map HostInput.command ++ rest :=
  ⟨fun _ => 0x60#8, fun _ => 0x61#8,
    { full with cal := none, inputs := (hostOpen fun _ => 0x60#8).map HostInput.command ++ [.reset] },
    [.reset], rfl, by decide, rfl, rfl, by decide, rfl⟩

theorem test_witness_IdleEngineHoldsItsState : full.inputs = [] := by decide

/-- Two values, which are too few; eight of which one is 256; and eight and thirty-two good ones, at the ends of the
range. -/
theorem test_witness_AssemblerRefusesBadRawForms :
    plainValues [.value 1, .value 2] = some [1, 2] ∧ ([1, 2] : List Int).length ≠ 8
      ∧ plainValues (.value 256 :: List.replicate 7 (.value 0)) = some (256 :: List.replicate 7 0)
      ∧ (∃ v ∈ 256 :: List.replicate 7 (0 : Int), v < 0 ∨ 255 < v)
      ∧ (256 :: List.replicate 7 (0 : Int)).length ≠ 32
      ∧ plainValues (.value 0 :: List.replicate 7 (.value 255)) = some (0 :: List.replicate 7 255)
      ∧ (0 :: List.replicate 7 (255 : Int)).length = 8 ∧ (∀ v ∈ 0 :: List.replicate 7 (255 : Int), 0 ≤ v ∧ v ≤ 255)
      ∧ plainValues (List.replicate 32 (.value 255)) = some (List.replicate 32 255)
      ∧ (List.replicate 32 (255 : Int)).length = 32 ∧ (∀ v ∈ List.replicate 32 (255 : Int), 0 ≤ v ∧ v ≤ 255) := by
  decide

/-- EV3's fields in another order; and the field form of CAL_TYP (EV6). -/
theorem test_witness_AssembledFieldsAreTheGivenValues :
    rawFields [("H".toList, 30000), ("P".toList, 415148), ("T".toList, 519888)] = some rawTyp
      ∧ calFields [("T1".toList, 27504), ("T2".toList, 26435), ("T3".toList, -1000), ("P1".toList, 36477),
          ("P2".toList, -10685), ("P3".toList, 3024), ("P4".toList, 2855), ("P5".toList, 140), ("P6".toList, -7),
          ("P7".toList, 15500), ("P8".toList, -14600), ("P9".toList, 6000), ("H1".toList, 75), ("H2".toList, 362),
          ("H3".toList, 0), ("H4".toList, 313), ("H5".toList, 50), ("H6".toList, 30)] = some calTyp := by
  decide

/-- The same fields are permutations of the ones each record spells. -/
theorem test_witness_AssembledFieldsAreTheGivenValues_perm :
    List.Perm [("H".toList, (30000 : Int)), ("P".toList, 415148), ("T".toList, 519888)]
        [("P".toList, rawTyp.adc_P.toNat), ("T".toList, rawTyp.adc_T.toNat), ("H".toList, rawTyp.adc_H.toNat)]
      ∧ List.Perm [("H6".toList, (30 : Int)), ("T1".toList, 27504), ("T2".toList, 26435), ("T3".toList, -1000),
          ("P1".toList, 36477), ("P2".toList, -10685), ("P3".toList, 3024), ("P4".toList, 2855), ("P5".toList, 140),
          ("P6".toList, -7), ("P7".toList, 15500), ("P8".toList, -14600), ("P9".toList, 6000), ("H1".toList, 75),
          ("H2".toList, 362), ("H3".toList, 0), ("H4".toList, 313), ("H5".toList, 50)]
        [("T1".toList, calTyp.dig_T1.toNat), ("T2".toList, calTyp.dig_T2.toInt), ("T3".toList, calTyp.dig_T3.toInt),
          ("P1".toList, calTyp.dig_P1.toNat), ("P2".toList, calTyp.dig_P2.toInt), ("P3".toList, calTyp.dig_P3.toInt),
          ("P4".toList, calTyp.dig_P4.toInt), ("P5".toList, calTyp.dig_P5.toInt), ("P6".toList, calTyp.dig_P6.toInt),
          ("P7".toList, calTyp.dig_P7.toInt), ("P8".toList, calTyp.dig_P8.toInt), ("P9".toList, calTyp.dig_P9.toInt),
          ("H1".toList, calTyp.dig_H1.toNat), ("H2".toList, calTyp.dig_H2.toInt), ("H3".toList, calTyp.dig_H3.toNat),
          ("H4".toList, calTyp.dig_H4.toInt), ("H5".toList, calTyp.dig_H5.toInt), ("H6".toList, calTyp.dig_H6.toInt)] := by
  decide

end Sys2Proof.Tests
end

section
/-!
PROOFS. Shifts and division (00_scope.md R13, R14): the right shift is the floor, the left shift is the bit-vector
shift, the quotient rounds toward zero and wraps in one case.
-/

namespace Sys2Proof.Machine

/-- 00_scope.md R13: the two bounds say what floor means, without naming a division. -/
theorem asr_floor_bounds {n : Nat} (hn : 0 < n) (x : BitVec n) (k : Nat) :
    2 ^ k * (asr x k).toInt ≤ x.toInt ∧ x.toInt < 2 ^ k * ((asr x k).toInt + 1) := by
  have hk : (0 : Int) < 2 ^ k := by positivity
  rw [asr_toInt hn]
  constructor
  · exact Int.mul_ediv_self_le hk.ne'
  · rw [mul_comm]
    exact Int.lt_ediv_add_one_mul_self x.toInt hk

/-- Multiplication by `2 ^ k` is the library's shift once the product is wrapped factor by factor. -/
theorem shlW_eq_shiftLeft {n : Nat} (x : BitVec n) (k : Nat) : shlW x k = x <<< k := by
  have hpow : BitVec.ofInt n (2 ^ k) = BitVec.twoPow n k := by
    apply BitVec.eq_of_toNat_eq
    rw [BitVec.toNat_twoPow, BitVec.toNat_ofInt]
    norm_cast
  unfold shlW wrap
  rw [BitVec.ofInt_mul, BitVec.ofInt_toInt, hpow, BitVec.shiftLeft_eq_mul_twoPow]

/-- 00_scope.md R14, its main case: the model's quotient is `BitVec.sdiv`, which the library shows exact here. -/
theorem quot64_toInt_of_not_overflow {a b : S64} (h : ¬(a.toInt = -2 ^ 63 ∧ b.toInt = -1)) :
    (quot64 a b).toInt = a.toInt.tdiv b.toInt := by
  have hne : a ≠ BitVec.intMin 64 ∨ b ≠ -1#64 := by
    apply not_and_or.1
    rintro ⟨rfl, rfl⟩
    exact h (by decide)
  rw [quot64_toInt, ← BitVec.toInt_sdiv, BitVec.toInt_sdiv_of_ne_or_ne a b hne]

/-- The sign rule of truncated division: the quotient's sign is the product's. -/
theorem tdiv_neg_iff_signs_differ {a b : Int} (h : a.tdiv b ≠ 0) :
    a.tdiv b < 0 ↔ ¬(a < 0 ↔ b < 0) := by
  have ha : a ≠ 0 := fun h0 => h (by rw [h0, Int.zero_tdiv])
  have hb : b ≠ 0 := fun h0 => h (by rw [h0, Int.tdiv_zero])
  have hsign : (a.tdiv b).sign = (a * b).sign := by
    have hs := Int.sign_tdiv a b
    split at hs
    · exact absurd (Int.sign_eq_zero_iff_zero.1 hs) h
    · rw [hs, Int.sign_mul]
  rw [← Int.sign_eq_neg_one_iff_neg, hsign, Int.sign_eq_neg_one_iff_neg, mul_neg_iff]
  omega

/-- 00_scope.md R14, its overflow case. -/
theorem quot64_toInt_of_overflow {a b : S64} (ha : a.toInt = -2 ^ 63) (hb : b.toInt = -1) :
    (quot64 a b).toInt = -2 ^ 63 := by
  rw [quot64_toInt, ha, hb]
  decide

/-- Settles O13: the floor's bounds and the shift at any positive width, and the truncated quotient where it does not
wrap. -/
theorem shiftsFloorAndDivisionTruncates : Obligations.ShiftsFloorAndDivisionTruncates := by
  refine ⟨fun n hn x k _ => ⟨asr_floor_bounds (by omega) x k, rfl, shlW_eq_shiftLeft x k⟩, by decide, by decide,
    fun a b _ hover => ?_, fun a b => quot64_toInt_of_overflow⟩
  rw [quot64_toInt_of_not_overflow hover]
  exact ⟨Int.natAbs_tdiv a.toInt b.toInt, tdiv_neg_iff_signs_differ⟩

end Sys2Proof.Machine
end

section
/-!
PROOFS. The command index and the reset values (10_state.md R36, R40): every instruction completes and leaves the index
to the common entry step; a reset empties every data register.
-/

namespace Sys2Proof.Machine

/-- 60_exceptions.md R140: the meanings leave the command index, the host's inputs and the parameters alone. -/
theorem exec_next_frame (i : Instr) (s : State) :
    ∃ t, exec i s = .next t ∧ t.idx = s.idx ∧ t.inputs = s.inputs ∧ t.params = s.params := by
  cases i with
  | ldcal img =>
    rcases execLdcal_cases img s with ⟨_, _, h⟩ | ⟨_, h⟩
    · exact ⟨_, h, rfl, rfl, rfl⟩
    · exact ⟨_, h, rfl, rfl, rfl⟩
  | ldraw img => exact ⟨_, execLdraw_eq img s, rfl, rfl, rfl⟩
  | comp =>
    rcases execComp_cases s with ⟨_, h⟩ | ⟨_, _, _, h⟩ | ⟨_, _, _, _, h⟩
    · exact ⟨_, h, rfl, rfl, rfl⟩
    · exact ⟨_, h, rfl, rfl, rfl⟩
    · exact ⟨_, h, rfl, rfl, rfl⟩
  | invcal =>
    rcases execInvcal_cases s with ⟨_, h⟩ | ⟨_, _, h⟩
    · exact ⟨_, h, rfl, rfl, rfl⟩
    · exact ⟨_, h, rfl, rfl, rfl⟩

/-- The common entry step is the one place where the index moves, before it looks at the command. -/
theorem stepCommand_next_idx (c : Command) (s : State) : ∃ t, stepCommand c s = .next t ∧ t.idx = s.idx + 1 := by
  rcases stepCommand_cases c s with ⟨_, h⟩ | ⟨_, _, _, h⟩ | ⟨i, _, _, h⟩
  · exact ⟨_, h, s.advance_idx⟩
  · exact ⟨_, h, s.advance_idx⟩
  · obtain ⟨t, ht, hidx, _, _⟩ := exec_next_frame i s.advance
    exact ⟨t, h.trans ht, hidx.trans s.advance_idx⟩

/-- A step whose next host input is a command is that command's entry step. -/
theorem step_of_command {s : State} {c : Command} {rest : List HostInput} (hi : s.inputs = .command c :: rest) :
    step s = stepCommand c s.dropInput := by
  unfold step stepInput
  rw [hi]

/-- 70_reset_and_hazards.md R153: a step whose next host input is a reset, in any state. -/
theorem step_of_reset {s : State} {rest : List HostInput} (hi : s.inputs = .reset :: rest) :
    step s = .next s.dropInput.hostReset := by
  unfold step stepInput
  rw [hi]

/-- 10_state.md R40: STATUS and FAULT_CAUSE are the only registers that hold a value after reset. -/
theorem hostRead_reset_eq_none {r : Register} (h1 : r ≠ .status) (h2 : r ≠ .faultCause) :
    State.reset.hostRead r = none := by
  cases r with
  | status => exact absurd rfl h1
  | faultCause => exact absurd rfl h2
  | _ => rfl

/-- 10_state.md R31, R40: after a reset no condition bit, valid bit or FAULT bit is set. -/
@[simp] theorem hostReset_status (s : State) : s.hostReset.status = 0x00#8 := by
  simp [State.status, State.fault, statusBit]

/-- Settles O48: the entry step adds one and no instruction touches the index. -/
theorem indexCountsEveryCommand : Obligations.IndexCountsEveryCommand := by
  refine ⟨rfl, fun s c rest hi => ?_⟩
  rw [step_of_command hi]
  exact stepCommand_next_idx c s.dropInput

/-- Settles O38: a host reset leaves the four files as the reset state has them, so the reads are the reset state's. -/
theorem hostResetGivesTheResetState : Obligations.HostResetGivesTheResetState := by
  intro s rest hi
  refine ⟨_, step_of_reset hi, fun r h1 h2 => ?_, congrArg some (hostReset_status _), rfl, rfl⟩
  exact (hostRead_congr h1 h2 rfl rfl rfl rfl).trans (hostRead_reset_eq_none h1 h2)

/-- Settles O39: the two registers that hold a value are 0x00 by evaluation, the others are empty. -/
theorem resetStateReads : Obligations.ResetStateReads :=
  ⟨fun _ h1 h2 => hostRead_reset_eq_none h1 h2, rfl, rfl, rfl⟩

end Sys2Proof.Machine
end

section
/-!
PROOFS. The check of a command pair (30_encoding.md R62): the pairs that pass it are the instructions' own, and a pair
that fails it is rejected by its opcode first, then by its length, and faults so.
-/

namespace Sys2Proof

/-- 30_encoding.md R70: the check by the opcodes' numbers. -/
theorem wellFormed_iff (c : Command) :
    c.wellFormed = true ↔
      (c.opcode.toNat = 1 ∧ c.payload.length = 32 ∨ c.opcode.toNat = 2 ∧ c.payload.length = 8
        ∨ c.opcode.toNat = 3 ∧ c.payload.length = 0 ∨ c.opcode.toNat = 4 ∧ c.payload.length = 0) := by
  simp only [Command.wellFormed, Bool.or_eq_true, Bool.and_eq_true, beq_iff_eq, BitVec.toNat_eq, BitVec.toNat_ofNat,
    Nat.reducePow, Nat.reduceMod, or_assoc]

/-- 30_encoding.md R62 as the decoder reads it: the payload is as long as the opcode map says. -/
theorem wellFormed_iff_opcodeLen (c : Command) :
    c.wellFormed = true ↔ opcodeLen c.opcode = some c.payload.length := by
  unfold opcodeLen
  split_ifs with h1 h2 h3 h4
  case neg => simp [Command.wellFormed, h1, h2, h3, h4]
  all_goals simp [Command.wellFormed, eq_comm (b := c.payload.length), *]

/-- 30_encoding.md R71: the opcodes the map does not have, by number. -/
theorem opcodeLen_eq_none_iff (op : Byte) : opcodeLen op = none ↔ op.toNat = 0 ∨ 5 ≤ op.toNat := by
  unfold opcodeLen
  split_ifs with h1 h2 h3 h4
  case neg =>
    simp only [true_iff]
    bv_omega
  all_goals simp [*]

/-- The decoder's answers sorted by the check: the pair of an instruction, a wrong length, or no opcode of the map. -/
theorem decodeCommand_ok_or_error (c : Command) :
    (∃ i, encodeCommand i = c ∧ decodeCommand c = .ok i)
      ∨ (∃ n, opcodeLen c.opcode = some n ∧ c.payload.length ≠ n ∧ decodeCommand c = .error .badLength)
      ∨ (opcodeLen c.opcode = none ∧ decodeCommand c = .error .illegalCommand) := by
  rcases decodeCommand_cases c with ⟨img, hc, hd⟩ | ⟨img, hc, hd⟩ | ⟨hc, hd⟩ | ⟨hc, hd⟩ | hbad | hill
  · exact .inl ⟨.ldcal img, hc.symm, hd⟩
  · exact .inl ⟨.ldraw img, hc.symm, hd⟩
  · exact .inl ⟨.comp, hc.symm, hd⟩
  · exact .inl ⟨.invcal, hc.symm, hd⟩
  · exact .inr (.inl hbad)
  · exact .inr (.inr hill)

/-- 30_encoding.md R62: an instruction's own pair passes the check. -/
@[simp] theorem encodeCommand_wellFormed (i : Instr) : (encodeCommand i).wellFormed = true := by
  have hform : Laws.CommandForm.Statement i := by
    cases i with
    | ldcal img => exact Laws.CommandForm.ldcal img
    | ldraw img => exact Laws.CommandForm.ldraw img
    | comp => exact Laws.CommandForm.comp
    | invcal => exact Laws.CommandForm.invcal
  exact hform.left

theorem decodeCommand_of_wellFormed {c : Command} (h : c.wellFormed = true) :
    ∃ i, decodeCommand c = .ok i ∧ encodeCommand i = c := by
  have hlen := (wellFormed_iff_opcodeLen c).1 h
  rcases decodeCommand_ok_or_error c with ⟨i, hc, hd⟩ | ⟨n, hn, hne, _⟩ | ⟨hnone, _⟩
  · exact ⟨i, hd, hc⟩
  · exact absurd (Option.some.inj (hlen.symm.trans hn)) hne
  · cases hnone.symm.trans hlen

/-- 30_encoding.md R71, R73: a pair that fails the check is rejected by its opcode first. -/
theorem decodeCommand_of_not_wellFormed {c : Command} (h : c.wellFormed = false) :
    decodeCommand c = .error (if opcodeLen c.opcode = none then .illegalCommand else .badLength) := by
  rcases decodeCommand_ok_or_error c with ⟨i, rfl, _⟩ | ⟨n, hn, _, hd⟩ | ⟨hnone, hd⟩
  · rw [encodeCommand_wellFormed] at h
    cases h
  · simp [hn, hd]
  · simp [hnone, hd]

end Sys2Proof

namespace Sys2Proof.Machine

/-- 60_exceptions.md R138, R140: a rejected pair changes nothing but FAULT_CAUSE and the index. -/
theorem step_of_rejected {s : State} {c : Command} {rest : List HostInput} {r : Reject} (hf : s.faultCause = 0#8)
    (hi : s.inputs = .command c :: rest) (hd : decodeCommand c = .error r) :
    step s = .next { s with inputs := rest, idx := s.idx + 1, faultCause := (rejectCause r).code } := by
  have hfault : s.dropInput.fault = false := s.fault_eq_false_iff.2 hf
  rw [step_of_command hi]
  rcases stepCommand_cases c s.dropInput with ⟨htrue, _⟩ | ⟨r', _, hd', hs⟩ | ⟨i, _, hok, _⟩
  · cases hfault.symm.trans htrue
  · cases hd.symm.trans hd'
    rw [hs]
    simp [State.takeFault, State.advance, State.dropInput, hi]
  · cases hd.symm.trans hok

/-- Settles O2: the check by number, the decoder's answer on each side of it, and the step of a rejected pair. -/
theorem wellFormedPairsAreTheInstructions : Obligations.WellFormedPairsAreTheInstructions := by
  intro c
  refine ⟨wellFormed_iff c, decodeCommand_of_wellFormed, fun hwf => ?_⟩
  have hd := decodeCommand_of_not_wellFormed hwf
  refine ⟨⟨_, hd⟩, fun s rest hf hi => ?_⟩
  rw [step_of_rejected hf hi hd, apply_ite rejectCause, apply_ite FaultCause.code]
  simp only [opcodeLen_eq_none_iff]
  rfl

end Sys2Proof.Machine
end

section
/-!
PROOFS. The values operand assembly spells (40_load.md R81, R82, R84, R91, R92): each shift-and-or of bytes is their
concatenation, whose value is a sum.
-/

namespace Sys2Proof.Machine

/-- A left shift combined with what fits below it is a concatenation. -/
theorem shiftLeft_or_eq_append {n m : Nat} (x : BitVec n) (y : BitVec m) :
    x.setWidth (n + m) <<< m ||| y.setWidth (n + m) = x ++ y := by
  rw [BitVec.append_def, BitVec.shiftLeftZeroExtend_eq, BitVec.setWidth'_eq]

theorem append_toNat_eq_add {n m : Nat} (x : BitVec n) (y : BitVec m) : (x ++ y).toNat = 2 ^ m * x.toNat + y.toNat := by
  rw [BitVec.toNat_append, ← Nat.shiftLeft_add_eq_or_of_lt y.isLt, Nat.shiftLeft_eq, mul_comm]

theorem append_toInt_eq_add {n m : Nat} (hn : n ≠ 0) (x : BitVec n) (y : BitVec m) :
    (x ++ y).toInt = 2 ^ m * x.toInt + y.toNat := by
  rw [BitVec.toInt_append, if_neg (by simpa using hn)]

theorem unsigned16_eq_append (lo hi : Byte) : unsigned16 lo hi = hi ++ lo := by
  unfold unsigned16
  rw [zext_eq_setWidth (by decide), zext_eq_setWidth (by decide), shlW_eq_shiftLeft, BitVec.or_comm]
  exact shiftLeft_or_eq_append hi lo

/-- 40_load.md R82: the copies of the sign bit above bit 15 are cut off. -/
theorem signed16_eq_append (lo hi : Byte) : signed16 lo hi = hi ++ lo := by
  unfold signed16
  rw [zext_eq_setWidth (by decide), sext_eq_signExtend (by decide) (by decide), shlW_eq_shiftLeft]
  ext i hlt
  simp only [BitVec.getElem_setWidth, BitVec.getLsbD_or, BitVec.getLsbD_shiftLeft, BitVec.getLsbD_signExtend]
  grind

/-- 40_load.md R81. -/
theorem unsigned16_toNat (lo hi : Byte) : (unsigned16 lo hi).toNat = lo.toNat + 256 * hi.toNat := by
  rw [unsigned16_eq_append, append_toNat_eq_add]
  omega

/-- 40_load.md R82. -/
theorem signed16_toInt (lo hi : Byte) : (signed16 lo hi).toInt = lo.toNat + 256 * hi.toInt := by
  rw [signed16_eq_append, append_toInt_eq_add (by decide)]
  omega

/-- 40_load.md R84: a byte above a nibble, whichever nibble it is. -/
theorem byte_over_nibble_toInt (b : Byte) {nib : Byte} (h : nib.toNat < 16) :
    (b.setWidth 12 <<< 4 ||| nib.setWidth 12).toInt = b.toInt * 16 + nib.toNat := by
  have hlow : (nib.setWidth 4).toNat = nib.toNat := by
    rw [BitVec.toNat_setWidth, Nat.mod_eq_of_lt h]
  have hwide : nib.setWidth 12 = (nib.setWidth 4).setWidth 12 := by
    apply BitVec.eq_of_toNat_eq
    rw [BitVec.toNat_setWidth, BitVec.toNat_setWidth, hlow]
  rw [hwide, shiftLeft_or_eq_append (n := 8) (m := 4), append_toInt_eq_add (by decide), hlow]
  omega

theorem packH4_toInt (b3 b4 : Byte) : (packH4 b3 b4).toInt = b3.toInt * 16 + (b4.toNat % 16 : Nat) := by
  have hnib : (b4 &&& 0x0F#8).toNat = b4.toNat % 16 := Nat.and_two_pow_sub_one_eq_mod b4.toNat 4
  rw [packH4, byte_over_nibble_toInt b3 (by omega), hnib]

theorem packH5_toInt (b5 b4 : Byte) : (packH5 b5 b4).toInt = b5.toInt * 16 + (b4.toNat / 16 : Nat) := by
  have hnib : (b4 >>> 4).toNat = b4.toNat / 16 := by
    rw [BitVec.toNat_ushiftRight, Nat.shiftRight_eq_div_pow]
  rw [packH5, byte_over_nibble_toInt b5 (by omega), hnib]

/-- 40_load.md R91: the low nibble of the third byte is dropped. -/
theorem reading20_eq_append (b0 b1 b2 : Byte) : reading20 b0 b1 b2 = ((b0 ++ b1 ++ b2) >>> 4).setWidth 20 := by
  have hhigh : (b0 ++ b1).setWidth 24 <<< 8 = b0.setWidth 24 <<< 16 ||| b1.setWidth 24 <<< 8 := by
    rw [← shiftLeft_or_eq_append b0 b1]
    ext i hlt
    simp only [BitVec.getElem_shiftLeft, BitVec.getElem_or]
    grind
  rw [reading20, ← hhigh, ← shiftLeft_or_eq_append (b0 ++ b1) b2]

theorem reading20_toNat (b0 b1 b2 : Byte) :
    (reading20 b0 b1 b2).toNat = (65536 * b0.toNat + 256 * b1.toNat + b2.toNat) / 16 := by
  rw [reading20_eq_append, BitVec.toNat_setWidth, BitVec.toNat_ushiftRight, Nat.shiftRight_eq_div_pow,
    append_toNat_eq_add, append_toNat_eq_add]
  omega

/-- 40_load.md R92, the default order. -/
theorem readingH_be_toNat (b6 b7 : Byte) : (readingH .be b6 b7).toNat = 256 * b6.toNat + b7.toNat := by
  have h : readingH .be b6 b7 = b6 ++ b7 := shiftLeft_or_eq_append b6 b7
  rw [h]
  exact append_toNat_eq_add b6 b7

/-- 40_load.md R92, the other order: the bytes trade places. -/
theorem readingH_le_toNat (b6 b7 : Byte) : (readingH .le b6 b7).toNat = b6.toNat + 256 * b7.toNat := by
  have h : readingH .le b6 b7 = readingH .be b7 b6 := BitVec.or_comm _ _
  rw [h, readingH_be_toNat, add_comm]

end Sys2Proof.Machine
end

section
/-!
PROOFS. The load family (40_load.md R86, R87, R92, R93, R95, R96): the next state of LDCAL, LDRAW and INVCAL, and the
numbers the loaded registers hold.
-/

namespace Sys2Proof.Machine

theorem exec_ldcal_of_empty (img : Vector Byte 32) {s : State} (h : s.cal = none) :
    exec (.ldcal img) s = .next (s.loadCal (decodeCal img)) := by
  rcases execLdcal_cases img s with ⟨c, hc, _⟩ | ⟨_, he⟩
  · cases h.symm.trans hc
  · exact he

/-- 40_load.md R87. -/
theorem exec_ldcal_of_loaded (img : Vector Byte 32) {s : State} (h : s.cal ≠ none) :
    exec (.ldcal img) s = .next s := by
  rcases execLdcal_cases img s with ⟨_, _, he⟩ | ⟨hc, _⟩
  · exact he
  · exact absurd hc h

theorem exec_invcal_of_loaded {s : State} (h : s.cal ≠ none) : exec .invcal s = .next s.clearCal := by
  rcases execInvcal_cases s with ⟨hc, _⟩ | ⟨_, _, he⟩
  · exact absurd hc h
  · exact he

/-- 40_load.md R96. -/
theorem exec_invcal_of_empty {s : State} (h : s.cal = none) : exec .invcal s = .next s := by
  rcases execInvcal_cases s with ⟨_, he⟩ | ⟨c, hc, _⟩
  · exact he
  · cases h.symm.trans hc

/-- Settles O15: the loaded file is `decodeCal`'s, whose registers are bytes, 16-bit pairs and two packed 12-bit ones. -/
theorem ldcalLoadsOrDoesNothing : Obligations.LdcalLoadsOrDoesNothing := by
  intro img s
  refine ⟨fun hc => ⟨decodeCal img, exec_ldcal_of_empty img hc, ?_⟩, exec_ldcal_of_loaded img⟩
  simp only [decodeCal, unsigned16_toNat, signed16_toInt, packH4_toInt, packH5_toInt, Nat.cast_ofNat,
    and_self]

/-- Settles O16: the loaded file is `decodeRaw`'s in the run's byte order. -/
theorem ldrawLoadsTheSample : Obligations.LdrawLoadsTheSample := by
  intro img s
  refine ⟨decodeRaw s.params.adcHOrder img, execLdraw_eq img s, reading20_toNat _ _ _, reading20_toNat _ _ _,
    fun hbe => ?_, fun hle => ?_⟩
  · rw [hbe]
    exact readingH_be_toNat _ _
  · rw [hle]
    exact readingH_le_toNat _ _

/-- Settles O17: the two cases of CAL_VALID. -/
theorem invcalEmptiesOrDoesNothing : Obligations.InvcalEmptiesOrDoesNothing :=
  fun _ => ⟨exec_invcal_of_loaded, exec_invcal_of_empty⟩

end Sys2Proof.Machine
end

section
/-!
PROOFS. The three stages as formulas over the integers (41_compensate.md R104, R107, R110 to R116, R119): each line is
the exact integer expression, because the outermost wrap of a line absorbs every wrap inside its sums and products. The
wraps that stay are those a shift or a division looks at.
-/

namespace Sys2Proof.Machine

/-- 41_compensate.md R104: `var1`. -/
theorem tempVar1_toInt (adcT : BitVec 20) (c : Cal) :
    (tempVar1 adcT c).toInt
      = (((adcT.toNat : Int) / 2 ^ 3 - c.dig_T1.toNat * 2) * c.dig_T2.toInt).bmod (2 ^ 32) / 2 ^ 11 := by
  simp (disch := decide) only [tempVar1, asr_toInt, mulW_toInt, subW_toInt, shlW_toInt, zext_toInt, sext_toInt]
  simp only [Int.sub_bmod_bmod, Int.bmod_mul_bmod, pow_one]

/-- 41_compensate.md R104: `var2` from the difference `d`, which its square uses twice. -/
theorem tempVar2_toInt (adcT : BitVec 20) (c : Cal) {d : Int}
    (hd : d = (adcT.toNat : Int) / 2 ^ 4 - c.dig_T1.toNat) :
    (tempVar2 adcT c).toInt = ((d * d).bmod (2 ^ 32) / 2 ^ 12 * c.dig_T3.toInt).bmod (2 ^ 32) / 2 ^ 14 := by
  simp (disch := decide) only [tempVar2, asr_toInt, mulW_toInt, subW_toInt, zext_toInt, sext_toInt, ← hd]
  simp only [Int.mul_bmod_bmod, Int.bmod_mul_bmod]

theorem tempFine_toInt (adcT : BitVec 20) (c : Cal) :
    (tempFine adcT c).toInt = ((tempVar1 adcT c).toInt + (tempVar2 adcT c).toInt).bmod (2 ^ 32) :=
  addW_toInt _ _

/-- 41_compensate.md R107. -/
theorem tempInt_toInt (tf : S32) :
    (tempInt tf).toInt = ((tf.toInt * 5).bmod (2 ^ 32) + 128).bmod (2 ^ 32) / 2 ^ 8 := by
  simp (disch := decide) only [tempInt, asr_toInt, addW_toInt, mulW_toInt, BitVec.reduceToInt]

/-- Settles O21: the four lines of the stage, each from the lines before it. -/
theorem temperatureStageFormula : Obligations.TemperatureStageFormula := by
  intro adcT c w a b var1 d var2 tf
  have hvar1 : (tempVar1 adcT c).toInt = var1 := tempVar1_toInt adcT c
  have hvar2 : (tempVar2 adcT c).toInt = var2 := tempVar2_toInt adcT c rfl
  have htf : (tempFine adcT c).toInt = tf := by rw [tempFine_toInt, hvar1, hvar2]
  refine ⟨hvar1, hvar2, htf, ?_⟩
  rw [tempInt_toInt, htf]

/-- 41_compensate.md R110: the seed stays far inside s64. -/
theorem presSeed_toInt (tf : S32) : (presSeed tf).toInt = tf.toInt - 128000 := by
  obtain ⟨hlo, hhi⟩ := toInt_bounds (by decide) tf
  rw [presSeed, subW, sext_toInt (by decide) (by decide)]
  exact wrap_toInt_of_bounds (by decide) (by simp; omega) (by simp; omega)

/-- 41_compensate.md R111. -/
theorem presVarP2_toInt (tf : S32) (c : Cal) {v1 : Int} (hv1 : (presSeed tf).toInt = v1) :
    (presVarP2 tf c).toInt
      = (v1 * v1 * c.dig_P6.toInt + v1 * c.dig_P5.toInt * 2 ^ 17 + c.dig_P4.toInt * 2 ^ 35).bmod (2 ^ 64) := by
  simp (disch := decide) only [presVarP2, addW_toInt, mulW_toInt, shlW_toInt, sext_toInt, hv1]
  simp only [Int.add_bmod_bmod, Int.bmod_add_bmod, Int.bmod_mul_bmod]

/-- 41_compensate.md R112, before the shift: the shift by 8 sees its own product wrapped. -/
theorem presScaled_toInt (tf : S32) (c : Cal) {v1 : Int} (hv1 : (presSeed tf).toInt = v1) :
    (presScaled tf c).toInt
      = ((2 ^ 47 + (v1 * v1 * c.dig_P3.toInt).bmod (2 ^ 64) / 2 ^ 8 + v1 * c.dig_P2.toInt * 2 ^ 12)
          * c.dig_P1.toNat).bmod (2 ^ 64) := by
  simp (disch := decide) only [presScaled, asr_toInt, addW_toInt, mulW_toInt, shlW_toInt, sext_toInt, zext_toInt, hv1,
    BitVec.reduceToInt, one_mul]
  simp only [Int.add_bmod_bmod, Int.bmod_add_bmod, Int.bmod_mul_bmod, add_assoc]

theorem presVarP1_toInt (tf : S32) (c : Cal) : (presVarP1 tf c).toInt = (presScaled tf c).toInt / 2 ^ 33 :=
  asr_toInt (by decide) _ _

/-- 41_compensate.md R114. -/
theorem presNumerator_toInt (adcP : BitVec 20) (tf : S32) (c : Cal) :
    (presNumerator adcP tf c).toInt
      = (((1048576 - adcP.toNat) * 2 ^ 31 - (presVarP2 tf c).toInt) * 3125).bmod (2 ^ 64) := by
  simp (disch := decide) only [presNumerator, mulW_toInt, subW_toInt, shlW_toInt, zext_toInt, BitVec.reduceToInt]
  simp only [Int.bmod_sub_bmod, Int.bmod_mul_bmod]

/-- 41_compensate.md R115, R116, for any quotient `p`. -/
theorem presCorrected_toInt (p : S64) (c : Cal) :
    (presCorrected p c).toInt
      = ((p.toInt + (c.dig_P9.toInt * (p.toInt / 2 ^ 13) * (p.toInt / 2 ^ 13)).bmod (2 ^ 64) / 2 ^ 25
            + (c.dig_P8.toInt * p.toInt).bmod (2 ^ 64) / 2 ^ 19).bmod (2 ^ 64) / 2 ^ 8
          + c.dig_P7.toInt * 2 ^ 4).bmod (2 ^ 64) := by
  simp (disch := decide) only [presCorrected, asr_toInt, addW_toInt, mulW_toInt, shlW_toInt, sext_toInt]
  simp only [Int.add_bmod_bmod, Int.bmod_add_bmod, Int.bmod_mul_bmod]

/-- 41_compensate.md R113: the zero-denominator condition by number. -/
theorem presDenomZero_eq (tf : S32) (c : Cal) : presDenomZero tf c = decide ((presVarP1 tf c).toInt = 0) := by
  rw [presDenomZero, Bool.beq_eq_decide_eq, decide_eq_decide]
  exact BitVec.toInt_inj.symm

/-- 41_compensate.md R113, R114: no division is made where the denominator is 0. -/
theorem presInt_toInt (adcP : BitVec 20) (tf : S32) (c : Cal) :
    (presInt adcP tf c).toInt
      = if (presVarP1 tf c).toInt = 0 then 0
        else (presCorrected (quot64 (presNumerator adcP tf c) (presVarP1 tf c)) c).toInt := by
  rw [presInt, presDenomZero_eq, apply_ite BitVec.toInt]
  simp only [decide_eq_true_eq, BitVec.toInt_zero]

/-- Settles O23: the lines of the stage, each from the lines before it; the quotient's line is the model's own. -/
theorem pressureStageFormula : Obligations.PressureStageFormula := by
  intro adcP tf c w v1 varP2 varP1 num p u1 u2
  have hv1 : (presSeed tf).toInt = v1 := presSeed_toInt tf
  have hP2 : (presVarP2 tf c).toInt = varP2 := presVarP2_toInt tf c hv1
  have hP1 : (presVarP1 tf c).toInt = varP1 := by rw [presVarP1_toInt, presScaled_toInt tf c hv1]
  have hnum : (presNumerator adcP tf c).toInt = num := by rw [presNumerator_toInt, hP2]
  have hp : (quot64 (presNumerator adcP tf c) (presVarP1 tf c)).toInt = p := by rw [quot64_toInt, hnum, hP1]
  refine ⟨hP2, hP1, hnum, ?_⟩
  rw [presInt_toInt, presCorrected_toInt, hP1, hp]

theorem humSeed_toInt (tf : S32) : (humSeed tf).toInt = (tf.toInt - 76800).bmod (2 ^ 32) := subW_toInt _ _

/-- 41_compensate.md R119: `x1`. -/
theorem humX1_toInt (adcH : BitVec 16) (tf : S32) (c : Cal) :
    (humX1 adcH tf c).toInt
      = (adcH.toNat * 2 ^ 14 - c.dig_H4.toInt * 2 ^ 20 - c.dig_H5.toInt * (humSeed tf).toInt + 16384).bmod (2 ^ 32)
          / 2 ^ 15 := by
  simp (disch := decide) only [humX1, asr_toInt, addW_toInt, subW_toInt, mulW_toInt, shlW_toInt, zext_toInt,
    sext_toInt, BitVec.reduceToInt]
  simp only [Int.bmod_add_bmod, Int.sub_bmod_bmod, Int.bmod_sub_bmod]

/-- 41_compensate.md R119: `y` from the seed `v`. -/
theorem humY_toInt (tf : S32) (c : Cal) {v : Int} (hv : (humSeed tf).toInt = v) :
    (humY tf c).toInt
      = ((((v * c.dig_H6.toInt).bmod (2 ^ 32) / 2 ^ 10
              * ((v * c.dig_H3.toNat).bmod (2 ^ 32) / 2 ^ 11 + 32768)).bmod (2 ^ 32) / 2 ^ 10 + 2097152)
          * c.dig_H2.toInt + 8192).bmod (2 ^ 32) / 2 ^ 14 := by
  simp (disch := decide) only [humY, asr_toInt, addW_toInt, mulW_toInt, zext_toInt, sext_toInt, hv,
    BitVec.reduceToInt]
  simp only [Int.bmod_add_bmod, Int.mul_bmod_bmod, Int.bmod_mul_bmod]

/-- 41_compensate.md R119: the last lines from `x1` and `y`; `s` sees their product wrapped. -/
theorem humUnclamped_toInt (adcH : BitVec 16) (tf : S32) (c : Cal) {x1 y s : Int} (hx1 : (humX1 adcH tf c).toInt = x1)
    (hy : (humY tf c).toInt = y) (hs : s = (x1 * y).bmod (2 ^ 32) / 2 ^ 15) :
    (humUnclamped adcH tf c).toInt
      = (x1 * y - ((s * s).bmod (2 ^ 32) / 2 ^ 7 * c.dig_H1.toNat).bmod (2 ^ 32) / 2 ^ 4).bmod (2 ^ 32) := by
  simp (disch := decide) only [humUnclamped, asr_toInt, subW_toInt, mulW_toInt, zext_toInt, hx1, hy, ← hs]
  simp only [Int.bmod_sub_bmod]

/-- Settles O25: `x1`, `y` and the value before the clamp, each from the lines before it. -/
theorem humidityStageFormula : Obligations.HumidityStageFormula := by
  intro adcH tf c w v x1 y1 y2 y s
  have hv : (humSeed tf).toInt = v := humSeed_toInt tf
  have hx1 : (humX1 adcH tf c).toInt = x1 := by rw [humX1_toInt, hv]
  have hy : (humY tf c).toInt = y := humY_toInt tf c hv
  exact ⟨hx1, hy, humUnclamped_toInt adcH tf c hx1 hy rfl⟩

end Sys2Proof.Machine
end

section
/-!
PROOFS. COMP's three cases (41_compensate.md R101, R102, R126, R127, R129): the two faults and the write of one
compensation, which is a function of the two files and of P_F32_MODE.
-/

namespace Sys2Proof.Machine

theorem exec_comp_of_empty_cal {s : State} (h : s.cal = none) : exec .comp s = .next (s.takeFault .calNotValid) := by
  rcases execComp_cases s with ⟨_, he⟩ | ⟨c, hc, _⟩ | ⟨c, _, hc, _⟩
  · exact he
  · cases h.symm.trans hc
  · cases h.symm.trans hc

theorem exec_comp_of_empty_raw {s : State} (hc : s.cal ≠ none) (h : s.raw = none) :
    exec .comp s = .next (s.takeFault .rawNotLoaded) := by
  rcases execComp_cases s with ⟨hnone, _⟩ | ⟨_, _, _, he⟩ | ⟨_, r, _, hr, _⟩
  · exact absurd hnone hc
  · exact he
  · cases h.symm.trans hr

theorem exec_comp_of_loaded {s : State} {c : Cal} {r : Raw} (hc : s.cal = some c) (hr : s.raw = some r) :
    exec .comp s = .next (s.writeResult (compensate s.params.pF32Mode c r)) := by
  rcases execComp_cases s with ⟨hnone, _⟩ | ⟨_, _, hnone, _⟩ | ⟨c', r', hc', hr', he⟩
  · cases hnone.symm.trans hc
  · cases hnone.symm.trans hr
  · cases hc.symm.trans hc'
    cases hr.symm.trans hr'
    exact he

/-- 41_compensate.md R102, R120, R126: one compensation as a record, its flags by number. -/
theorem compensate_eq (mode : PF32Mode) (c : Cal) (r : Raw) {tf : S32} (htf : tempFine r.adc_T c = tf) :
    compensate mode c r =
      { tfine := tf
        res :=
          { t_int := tempInt tf
            p_int := presInt r.adc_P tf c
            h_int := humInt (humUnclamped r.adc_H tf c)
            t_f32 := cvtT (tempInt tf)
            p_f32 := cvtP mode (presInt r.adc_P tf c)
            h_f32 := cvtH (humInt (humUnclamped r.adc_H tf c)) }
        pDenomZero := decide ((presVarP1 tf c).toInt = 0)
        hClampLo := decide ((humUnclamped r.adc_H tf c).toInt < 0)
        hClampHi := decide (419430400 < (humUnclamped r.adc_H tf c).toInt) } := by
  have hmax : humMax.toInt = 419430400 := rfl
  rw [compensate, htf, flagPDenomZero, presDenomZero_eq, flagHClampLo, flagHClampHi, hmax]

/-- Settles O30: both runs write a compensation of the same files in the same mode. -/
theorem compDependsOnItsInputsOnly : Obligations.CompDependsOnItsInputsOnly := by
  intro s₁ s₂ hcal hraw hmode hc hr
  obtain ⟨c, hc₁⟩ := Option.ne_none_iff_exists'.1 hc
  obtain ⟨r, hr₁⟩ := Option.ne_none_iff_exists'.1 hr
  refine ⟨_, _, exec_comp_of_loaded hc₁ hr₁, exec_comp_of_loaded (hcal ▸ hc₁) (hraw ▸ hr₁), ?_⟩
  simp [hmode]

/-- Settles O20: the two faults, and the write of one compensation field by field. -/
theorem compWritesItsResults : Obligations.CompWritesItsResults := by
  refine ⟨fun s => exec_comp_of_empty_cal, fun s => exec_comp_of_empty_raw, fun s c r hc hr => ?_⟩
  rw [exec_comp_of_loaded hc hr, compensate_eq _ _ _ rfl, State.writeResult]

end Sys2Proof.Machine
end

section
/-!
PROOFS. The common entry step (60_exceptions.md R140) with the next state written out: an ignored command, a rejected
one and a dispatched one.
-/

namespace Sys2Proof

/-- 30_encoding.md R71. -/
theorem decodeCommand_of_illegal {c : Command} (h : opcodeLen c.opcode = none) :
    decodeCommand c = .error .illegalCommand := by
  have hwf : c.wellFormed = false := by simp [← Bool.not_eq_true, wellFormed_iff_opcodeLen, h]
  simpa [h] using decodeCommand_of_not_wellFormed hwf

theorem not_wellFormed_of_badLength {c : Command} {n : Nat} (h : opcodeLen c.opcode = some n)
    (hne : c.payload.length ≠ n) : c.wellFormed = false := by
  simpa [← Bool.not_eq_true, wellFormed_iff_opcodeLen, h] using hne.symm

/-- 30_encoding.md R73. -/
theorem decodeCommand_of_badLength {c : Command} {n : Nat} (h : opcodeLen c.opcode = some n)
    (hne : c.payload.length ≠ n) : decodeCommand c = .error .badLength := by
  simpa [h] using decodeCommand_of_not_wellFormed (not_wellFormed_of_badLength h hne)

end Sys2Proof

namespace Sys2Proof.Machine

/-- 60_exceptions.md R140: a faulted engine counts the command and ignores it. -/
theorem step_of_faulted {s : State} {c : Command} {rest : List HostInput} (hf : s.faultCause ≠ 0#8)
    (hi : s.inputs = .command c :: rest) : step s = .next { s with inputs := rest, idx := s.idx + 1 } := by
  have hfault : s.dropInput.fault = true := s.fault_eq_true_iff.2 hf
  rw [step_of_command hi]
  rcases stepCommand_cases c s.dropInput with ⟨_, hs⟩ | ⟨_, hfalse, _⟩ | ⟨_, hfalse, _⟩
  · rw [hs]
    simp [State.advance, State.dropInput, hi]
  · cases hfault.symm.trans hfalse
  · cases hfault.symm.trans hfalse

/-- 60_exceptions.md R140: a decoded command's rule runs after the index has moved on. -/
theorem step_of_decoded {s : State} {c : Command} {rest : List HostInput} {i : Instr} (hf : s.faultCause = 0#8)
    (hi : s.inputs = .command c :: rest) (hd : decodeCommand c = .ok i) :
    step s = exec i { s with inputs := rest, idx := s.idx + 1 } := by
  have hfault : s.dropInput.fault = false := s.fault_eq_false_iff.2 hf
  rw [step_of_command hi]
  rcases stepCommand_cases c s.dropInput with ⟨htrue, _⟩ | ⟨_, _, herr, _⟩ | ⟨i', _, hok, hs⟩
  · cases hfault.symm.trans htrue
  · cases hd.symm.trans herr
  · cases hd.symm.trans hok
    rw [hs]
    simp [State.advance, State.dropInput, hi]

/-- Settles O32: the four cases of the entry step. -/
theorem stepRunsTheDecodedCommand : Obligations.StepRunsTheDecodedCommand := by
  intro s c rest hi
  refine ⟨fun hf => step_of_faulted hf hi,
    fun hf hlen => step_of_rejected hf hi (decodeCommand_of_illegal hlen),
    fun n hf hlen hne => step_of_rejected hf hi (decodeCommand_of_badLength hlen hne), fun n hf hlen hn => ?_⟩
  obtain ⟨i, hd, _⟩ := decodeCommand_of_wellFormed ((wellFormed_iff_opcodeLen c).2 (by rw [hlen, hn]))
  exact ⟨i, hd, step_of_decoded hf hi hd⟩

end Sys2Proof.Machine
end

section
/-!
PROOFS. Faults (60_exceptions.md R137 to R142): COMP's preconditions are the only causes behind the entry step, fault
entry writes FAULT_CAUSE only, and a faulted engine's cause stays until a reset.
-/

namespace Sys2Proof.Machine

/-- 41_compensate.md R101, 60_exceptions.md R137: an instruction's own causes are COMP's two preconditions; whatever
else it does leaves FAULT_CAUSE alone. -/
theorem exec_faults_or_keeps_cause (i : Instr) (s : State) :
    (i = .comp ∧ s.cal = none ∧ exec i s = .next (s.takeFault .calNotValid))
      ∨ (i = .comp ∧ s.cal ≠ none ∧ s.raw = none ∧ exec i s = .next (s.takeFault .rawNotLoaded))
      ∨ ((i = .comp → s.cal ≠ none ∧ s.raw ≠ none) ∧ ∃ t, exec i s = .next t ∧ t.faultCause = s.faultCause) := by
  cases i with
  | ldcal img =>
    refine .inr (.inr ⟨nofun, ?_⟩)
    rcases execLdcal_cases img s with ⟨_, _, h⟩ | ⟨_, h⟩
    · exact ⟨_, h, rfl⟩
    · exact ⟨_, h, rfl⟩
  | ldraw img => exact .inr (.inr ⟨nofun, _, execLdraw_eq img s, rfl⟩)
  | comp =>
    rcases execComp_cases s with ⟨hc, h⟩ | ⟨c, hc, hr, h⟩ | ⟨c, r, hc, hr, h⟩
    · exact .inl ⟨rfl, hc, h⟩
    · exact .inr (.inl ⟨rfl, by simp [hc], hr, h⟩)
    · exact .inr (.inr ⟨fun _ => by simp [hc, hr], _, h, rfl⟩)
  | invcal =>
    refine .inr (.inr ⟨nofun, ?_⟩)
    rcases execInvcal_cases s with ⟨_, h⟩ | ⟨_, _, h⟩
    · exact ⟨_, h, rfl⟩
    · exact ⟨_, h, rfl⟩

theorem encodeCommand_opcode_eq_three_iff (i : Instr) : (encodeCommand i).opcode.toNat = 3 ↔ i = .comp := by
  cases i <;> simp [encodeCommand]

/-- 60_exceptions.md R141 behind the entry step: the cause an instruction leaves on an unfaulted engine. -/
theorem exec_next_cause (i : Instr) {s : State} (hf : s.faultCause = 0#8) :
    ∃ t, exec i s = .next t ∧
      t.faultCause =
        if i = .comp ∧ s.cal = none then 0x03#8 else if i = .comp ∧ s.raw = none then 0x04#8 else 0x00#8 := by
  rcases exec_faults_or_keeps_cause i s with ⟨hcomp, hc, h⟩ | ⟨hcomp, hc, hr, h⟩ | ⟨hok, t, h, hkeep⟩
  · exact ⟨_, h, (if_pos ⟨hcomp, hc⟩).symm⟩
  · refine ⟨_, h, ?_⟩
    rw [if_neg fun hcal => hc hcal.2, if_pos ⟨hcomp, hr⟩]
    rfl
  · refine ⟨t, h, ?_⟩
    rw [if_neg fun hcal => (hok hcal.1).1 hcal.2, if_neg fun hraw => (hok hraw.1).2 hraw.2, hkeep, hf]

/-- Settles O34: ignored, rejected by opcode, rejected by length, or an instruction with its own cause. -/
theorem firstCauseInPriorityIsRecorded : Obligations.FirstCauseInPriorityIsRecorded := by
  intro s c rest hi
  by_cases hf : s.faultCause = 0#8
  case neg => exact ⟨_, step_of_faulted hf hi, (if_pos hf).symm⟩
  simp only [if_neg (not_not_intro hf), ← opcodeLen_eq_none_iff]
  rcases decodeCommand_ok_or_error c with ⟨i, rfl, hd⟩ | ⟨n, hlen, hne, hd⟩ | ⟨hlen, hd⟩
  · obtain ⟨t, ht, hcause⟩ := exec_next_cause i (s := { s with inputs := rest, idx := s.idx + 1 }) hf
    have hlen := (wellFormed_iff_opcodeLen _).1 (encodeCommand_wellFormed i)
    refine ⟨t, (step_of_decoded hf hi hd).trans ht, hcause.trans ?_⟩
    simp [hlen, encodeCommand_opcode_eq_three_iff]
  · refine ⟨_, step_of_rejected hf hi hd, ?_⟩
    simp [hlen, not_wellFormed_of_badLength hlen hne, rejectCause, FaultCause.code]
  · refine ⟨_, step_of_rejected hf hi hd, ?_⟩
    simp [hlen, rejectCause, FaultCause.code]

/-- 60_exceptions.md R138: a step that faults the engine is one fault entry after the command is taken and counted. -/
theorem step_fault_entry {s t : State} (h : step s = .next t) (hf : s.faultCause = 0#8) (ht : t.faultCause ≠ 0#8) :
    ∃ cause, t = State.takeFault cause { s with idx := s.idx + 1, inputs := s.inputs.tail } := by
  rcases step_next_cases h with ⟨_, rfl⟩ | ⟨_, _, rfl⟩ | ⟨c, rest, hi, hcmd⟩
  · exact absurd hf ht
  · exact absurd rfl ht
  rw [hi]
  rcases hcmd with ⟨hfaulted, _⟩ | ⟨r, _, _, rfl⟩ | ⟨i, _, _, hexec⟩
  · exact absurd hf hfaulted
  · exact ⟨rejectCause r, rfl⟩
  · rcases exec_faults_or_keeps_cause i { s with inputs := rest, idx := s.idx + 1 } with
      ⟨_, _, he⟩ | ⟨_, _, _, he⟩ | ⟨_, t', he, hkeep⟩
    · cases hexec.symm.trans he
      exact ⟨.calNotValid, rfl⟩
    · cases hexec.symm.trans he
      exact ⟨.rawNotLoaded, rfl⟩
    · cases hexec.symm.trans he
      exact absurd (hkeep.trans hf) ht

/-- 60_exceptions.md R137: the four codes, by number. -/
theorem FaultCause.code_toNat (cause : FaultCause) :
    cause.code.toNat = 1 ∨ cause.code.toNat = 2 ∨ cause.code.toNat = 3 ∨ cause.code.toNat = 4 := by
  cases cause <;> simp [FaultCause.code]

/-- 10_state.md R31, R35: fault entry on an unfaulted engine sets STATUS bit 7 and no other bit. -/
theorem takeFault_status (cause : FaultCause) {s : State} (hf : s.fault = false) :
    (s.takeFault cause).status = s.status ||| 0x80#8 := by
  have hset : statusBit true 7 = 0x80#8 := rfl
  have hclear : statusBit false 7 = 0x00#8 := rfl
  simp [State.status, hf, hset, hclear]

/-- Settles O35: what one fault entry leaves of the state, STATUS and the host reads. -/
theorem faultsArePrecise : Obligations.FaultsArePrecise := by
  intro s t h hf ht
  obtain ⟨cause, rfl⟩ := step_fault_entry h hf ht
  exact ⟨rfl, cause.code_toNat, takeFault_status cause (s.fault_eq_false_iff.2 hf),
    fun r h1 h2 => hostRead_congr h1 h2 rfl rfl rfl rfl⟩

/-- Settles O37: an idle engine and an ignored command keep the cause; a reset gives the reset state. -/
theorem onlyResetClearsAFault : Obligations.OnlyResetClearsAFault := by
  intro s t h hf hchanged
  rcases step_cases s with ⟨_, hs⟩ | ⟨rest, hi, hs⟩ | ⟨c, rest, hi, _⟩
  · cases h.symm.trans hs
    exact absurd rfl hchanged
  · obtain ⟨t', hs', hreads, hstatus, _, hidx⟩ := hostResetGivesTheResetState s rest hi
    cases hs'.symm.trans h
    cases hs.symm.trans h
    exact ⟨⟨rest, hi⟩, rfl, Option.some.inj hstatus, hidx, hreads⟩
  · cases h.symm.trans (step_of_faulted hf hi)
    exact absurd rfl hchanged

end Sys2Proof.Machine
end

section
/-!
PROOFS. COMP after INVCAL (70_reset_and_hazards.md R164): an INVCAL leaves an unfaulted engine without a calibration,
LDRAWs and INVCALs keep it so, and COMP then faults.
-/

namespace Sys2Proof

/-- 30_encoding.md R62, R70: the decoder inverts the pairs of the instructions. -/
@[simp] theorem decodeCommand_encodeCommand (i : Instr) : decodeCommand (encodeCommand i) = .ok i := by
  cases i with
  | ldcal img => simp [decodeCommand, encodeCommand, imageOf_toList]
  | ldraw img => simp [decodeCommand, encodeCommand, imageOf_toList]
  | comp => rfl
  | invcal => rfl

end Sys2Proof

namespace Sys2Proof.Machine

theorem run_succ_of_step {M : Host.Core} {s t : M.State} (h : M.step s = .next t) (k : Nat) :
    M.run (k + 1) s = M.run k t := by
  rw [Host.Core.run, h]

/-- An unfaulted engine without a calibration, for which the host has issued `inputs`. -/
structure Uncalibrated (s : State) (inputs : List HostInput) : Prop where
  faultCause : s.faultCause = 0#8
  cal : s.cal = none
  inputs : s.inputs = inputs

/-- 40_load.md R95, R96: an INVCAL empties the calibration file or finds it empty. -/
theorem step_invcal_uncalibrated {s : State} {rest : List HostInput} (hf : s.faultCause = 0#8)
    (hi : s.inputs = .command (encodeCommand .invcal) :: rest) : ∃ t, step s = .next t ∧ Uncalibrated t rest := by
  have hstep := step_of_decoded hf hi (decodeCommand_encodeCommand .invcal)
  by_cases hc : s.cal = none
  · exact ⟨_, hstep.trans (exec_invcal_of_empty hc), hf, hc, rfl⟩
  · exact ⟨_, hstep.trans (exec_invcal_of_loaded hc), hf, rfl, rfl⟩

/-- 40_load.md R93: an LDRAW writes the raw file only, with or without a calibration. -/
theorem step_ldraw_uncalibrated {s : State} {img : Vector Byte 8} {rest : List HostInput}
    (h : Uncalibrated s (.command (encodeCommand (.ldraw img)) :: rest)) :
    ∃ t, step s = .next t ∧ Uncalibrated t rest :=
  ⟨_, step_of_decoded h.faultCause h.inputs (decodeCommand_encodeCommand _), h.faultCause, h.cal, rfl⟩

/-- 41_compensate.md R101: COMP's first precondition. -/
theorem step_comp_of_uncalibrated {s : State} {rest : List HostInput}
    (h : Uncalibrated s (.command (encodeCommand .comp) :: rest)) :
    ∃ t, step s = .next t ∧ t.faultCause = 0x03#8 ∧ t.cal = none :=
  ⟨_, (step_of_decoded h.faultCause h.inputs (decodeCommand_encodeCommand _)).trans (exec_comp_of_empty_cal h.cal),
    rfl, h.cal⟩

/-- 70_reset_and_hazards.md R164 behind the INVCAL, by induction on the commands before the COMP. -/
theorem run_to_comp_of_uncalibrated (between : List Instr) (rest : List HostInput) {s : State}
    (hbetween : ∀ i ∈ between, (∃ img, i = .ldraw img) ∨ i = .invcal)
    (h : Uncalibrated s ((between ++ [Instr.comp]).map (HostInput.command ∘ encodeCommand) ++ rest)) :
    ∃ t, Host.Core.run core (between.length + 1) s = .next t ∧ t.faultCause = 0x03#8 ∧ t.cal = none := by
  induction between generalizing s with
  | nil =>
    obtain ⟨t, hstep, ht⟩ := step_comp_of_uncalibrated h
    exact ⟨t, run_succ_of_step (M := core) hstep 0, ht⟩
  | cons i between ih =>
    obtain ⟨hi, hbetween⟩ := List.forall_mem_cons.1 hbetween
    obtain ⟨u, hstep, hu⟩ : ∃ u, step s = .next u ∧
        Uncalibrated u ((between ++ [Instr.comp]).map (HostInput.command ∘ encodeCommand) ++ rest) := by
      rcases hi with ⟨img, rfl⟩ | rfl
      · exact step_ldraw_uncalibrated h
      · exact step_invcal_uncalibrated h.faultCause h.inputs
    obtain ⟨t, hrun, ht⟩ := ih hbetween hu
    exact ⟨t, (run_succ_of_step (M := core) hstep _).trans hrun, ht⟩

/-- Settles O54: the INVCAL leaves no calibration, and the commands up to the COMP find and leave none. -/
theorem compAfterInvcalFaults : Obligations.CompAfterInvcalFaults := by
  intro s between rest hf hbetween hi
  obtain ⟨u, hstep, hu⟩ := step_invcal_uncalibrated hf hi
  obtain ⟨t, hrun, ht⟩ := run_to_comp_of_uncalibrated between rest hbetween hu
  exact ⟨t, (run_succ_of_step (M := core) hstep _).trans hrun, ht⟩

end Sys2Proof.Machine
end

section
/-!
PROOFS. Bytes and instructions (30_encoding.md R61 to R66, R70 to R73, R78): the first command of a stream that begins
with an instruction's bytes is that instruction's pair, and nothing else decodes to it.
-/

namespace Sys2Proof

/-- 30_encoding.md R61, R72: the opcode's length cuts an instruction's payload off where it ends. -/
theorem nextCommand_encode_append (i : Instr) (rest : List Byte) :
    nextCommand (encode i ++ rest) = some (encodeCommand i, rest) := by
  have hlen : opcodeLen (encodeCommand i).opcode = some (encodeCommand i).payload.length :=
    (wellFormed_iff_opcodeLen _).1 (encodeCommand_wellFormed i)
  rw [encode_eq, List.cons_append, nextCommand_cons, hlen, Option.getD_some, List.take_left, List.drop_left]

/-- 30_encoding.md R61: the bytes of a stream's first command are the stream up to what is left of it. -/
theorem commandBytes_append_of_nextCommand {bytes rest : List Byte} {c : Command}
    (h : nextCommand bytes = some (c, rest)) : commandBytes c ++ rest = bytes := by
  cases bytes with
  | nil => cases h
  | cons op tail =>
    rw [nextCommand_cons] at h
    cases h
    exact congrArg (op :: ·) (List.take_append_drop _ tail)

theorem encodeCommand_eq_of_decodeCommand_ok {c : Command} {i : Instr} (h : decodeCommand c = .ok i) :
    encodeCommand i = c := by
  rcases decodeCommand_ok_or_error c with ⟨i', hc, hd⟩ | ⟨_, _, _, hd⟩ | ⟨_, hd⟩
  · cases h.symm.trans hd
    exact hc
  · cases h.symm.trans hd
  · cases h.symm.trans hd

/-- 30_encoding.md R73: a wrong length is one of a legal opcode. -/
theorem decodeCommand_eq_badLength_iff (c : Command) :
    decodeCommand c = .error .badLength ↔ ∃ n, opcodeLen c.opcode = some n ∧ c.payload.length ≠ n := by
  constructor
  · intro h
    rcases decodeCommand_ok_or_error c with ⟨_, _, hd⟩ | ⟨n, hn, hne, _⟩ | ⟨_, hd⟩
    · cases h.symm.trans hd
    · exact ⟨n, hn, hne⟩
    · cases h.symm.trans hd
  · rintro ⟨n, hn, hne⟩
    exact decodeCommand_of_badLength hn hne

/-- 30_encoding.md R71. -/
theorem decodeCommand_eq_illegalCommand_iff (c : Command) :
    decodeCommand c = .error .illegalCommand ↔ opcodeLen c.opcode = none := by
  constructor
  · intro h
    rcases decodeCommand_ok_or_error c with ⟨_, _, hd⟩ | ⟨_, _, _, hd⟩ | ⟨hnone, _⟩
    · cases h.symm.trans hd
    · cases h.symm.trans hd
    · exact hnone
  · exact decodeCommand_of_illegal

/-- 30_encoding.md R70: the opcode map, by number. -/
theorem opcodeLen_eq_some_iff (op : Byte) (n : Nat) :
    opcodeLen op = some n ↔
      op.toNat = 1 ∧ n = 32 ∨ op.toNat = 2 ∧ n = 8 ∨ op.toNat = 3 ∧ n = 0 ∨ op.toNat = 4 ∧ n = 0 := by
  unfold opcodeLen
  split_ifs with h1 h2 h3 h4
  case neg =>
    simp only [false_iff]
    bv_omega
  all_goals simp [eq_comm (a := n), *]

/-- Settles O1: the first command's pair decodes to `i` exactly when it is the pair of `i`. -/
theorem bytesDecodeExactlyToTheirInstruction : Obligations.BytesDecodeExactlyToTheirInstruction := by
  intro bytes rest i
  constructor
  · intro h
    obtain ⟨⟨c, rest'⟩, hnext, hdec⟩ := Option.map_eq_some_iff.1 h
    obtain ⟨hc, rfl⟩ := Prod.mk.inj hdec
    rw [encode, encodeCommand_eq_of_decodeCommand_ok hc, commandBytes_append_of_nextCommand hnext]
  · rintro rfl
    rw [decode, nextCommand_encode_append, Option.map_some, decodeCommand_encodeCommand]

/-- Settles O3: the two rejections by the opcode map, and the map by number. -/
theorem rejectionGoesByOpcodeThenLength : Obligations.RejectionGoesByOpcodeThenLength := by
  intro c
  refine ⟨(decodeCommand_eq_illegalCommand_iff c).trans (opcodeLen_eq_none_iff c.opcode), ?_⟩
  rw [decodeCommand_eq_badLength_iff]
  simp only [opcodeLen_eq_some_iff, or_and_right, exists_or, and_assoc, exists_and_left, exists_eq_left]

/-- 30_encoding.md R72, R78: as many rounds as the program has commands are enough. -/
theorem commandsOfFuel_encodeProgram {fuel : Nat} {prog : List Instr} (h : prog.length ≤ fuel) :
    commandsOfFuel fuel (encodeProgram prog) = prog.map encodeCommand := by
  induction prog generalizing fuel with
  | nil => cases fuel <;> rfl
  | cons i prog ih =>
    obtain ⟨fuel, rfl⟩ : ∃ m, fuel = m + 1 := ⟨fuel - 1, by simp at h; omega⟩
    have hcons : encodeProgram (i :: prog) = encode i ++ encodeProgram prog := List.flatMap_cons
    rw [hcons, commandsOfFuel, nextCommand_encode_append, List.map_cons]
    exact congrArg _ (ih (by simpa using h))

/-- 30_encoding.md R61: every instruction has at least its opcode byte. -/
theorem length_le_length_encodeProgram (prog : List Instr) : prog.length ≤ (encodeProgram prog).length := by
  induction prog with
  | nil => exact Nat.le_refl 0
  | cons i prog ih =>
    simp only [encodeProgram, List.flatMap_cons, encode_eq, List.length_append, List.length_cons] at ih ⊢
    omega

/-- Settles O7: a stream has at least as many bytes as commands, so the rounds are enough. -/
theorem programStreamSplitsBack : Obligations.ProgramStreamSplitsBack :=
  fun prog => commandsOfFuel_encodeProgram (length_le_length_encodeProgram prog)

/-- Settles O4: the words are the encodings of the instructions they are said to stand for. -/
theorem specWordsDecode : Obligations.SpecWordsDecode :=
  ⟨programStreamSplitsBack [.comp, .invcal], fun rest => (bytesDecodeExactlyToTheirInstruction _ rest (.ldraw _)).2 rfl,
    fun rest => (bytesDecodeExactlyToTheirInstruction _ rest (.ldcal _)).2 rfl⟩

end Sys2Proof
end

section
/-!
PROOFS. Operand forms (30_encoding.md R76; 40_load.md R81, R82, R84, R91, R92): the field forms cut each field into the
bytes that operand assembly puts together again, and the sensor registers the image bytes come from (20_memory.md R46,
R47).
-/

namespace Sys2Proof.Machine

/-- Settles O10: both decoders concatenate the high byte and the low byte. -/
theorem sixteenBitDecoderValues : Obligations.SixteenBitDecoderValues := by
  intro lo hi
  refine ⟨unsigned16_toNat lo hi, signed16_toInt lo hi, ?_⟩
  apply BitVec.eq_of_toNat_eq
  rw [signed16_eq_append, append_toNat_eq_add, BitVec.toNat_ofNat]
  omega

/-- Settles O11: a byte above the low or the high nibble of b4. -/
theorem packedTwelveBitValues : Obligations.PackedTwelveBitValues :=
  fun b3 b4 b5 => ⟨packH4_toInt b3 b4, packH5_toInt b5 b4⟩

theorem highByte_append_lowByte (v : BitVec 16) : highByte v ++ lowByte v = v := by
  apply BitVec.eq_of_toNat_eq
  rw [append_toNat_eq_add]
  simp only [highByte, lowByte, BitVec.toNat_setWidth, BitVec.toNat_ushiftRight, Nat.shiftRight_eq_div_pow]
  omega

@[simp] theorem unsigned16_lowByte_highByte (v : BitVec 16) : unsigned16 (lowByte v) (highByte v) = v := by
  rw [unsigned16_eq_append, highByte_append_lowByte]

@[simp] theorem signed16_lowByte_highByte (v : BitVec 16) : signed16 (lowByte v) (highByte v) = v := by
  rw [signed16_eq_append, highByte_append_lowByte]

/-- 30_encoding.md R76: byte 29 of the calibration image holds the low nibbles of dig_H4 and dig_H5. -/
def sharedNibbles (h4 h5 : BitVec 12) : Byte := (h4.setWidth 8 &&& 0x0F#8) ||| (h5.setWidth 8 <<< 4)

theorem and_fifteen_eq_setWidth (b : Byte) : b &&& 0x0F#8 = (b.setWidth 4).setWidth 8 := by
  apply BitVec.eq_of_toNat_eq
  have hand : (b &&& 0x0F#8).toNat = b.toNat % 16 := Nat.and_two_pow_sub_one_eq_mod b.toNat 4
  rw [hand, BitVec.toNat_setWidth, BitVec.toNat_setWidth]
  omega

@[simp] theorem packH4_sharedNibbles (h4 h5 : BitVec 12) :
    packH4 ((h4 >>> 4).setWidth 8) (sharedNibbles h4 h5) = h4 := by
  rw [packH4, sharedNibbles, and_fifteen_eq_setWidth, and_fifteen_eq_setWidth]
  ext i hlt
  by_cases hnib : i < 4
  · simp [hnib, BitVec.getLsbD_eq_getElem, hlt]
  · have hback : 4 + (i - 4) = i := by omega
    simp [hnib, hback, BitVec.getLsbD_eq_getElem, hlt, show i - 4 < 8 by omega]

@[simp] theorem packH5_sharedNibbles (h4 h5 : BitVec 12) :
    packH5 ((h5 >>> 4).setWidth 8) (sharedNibbles h4 h5) = h5 := by
  rw [packH5, sharedNibbles, and_fifteen_eq_setWidth]
  ext i hlt
  by_cases hnib : i < 4
  · simp [hnib, BitVec.getLsbD_eq_getElem, hlt, show 4 + i < 12 by omega, show 4 + i < 8 by omega]
  · have hback : 4 + (i - 4) = i := by omega
    simp [hnib, hback, BitVec.getLsbD_eq_getElem, hlt, show i - 4 < 8 by omega]

/-- Settles O5: field by field, each from its own bytes. -/
theorem calFieldFormDecodesBack : Obligations.CalFieldFormDecodesBack := by
  intro c
  have h4 := packH4_sharedNibbles c.dig_H4 c.dig_H5
  have h5 := packH5_sharedNibbles c.dig_H4 c.dig_H5
  simp only [sharedNibbles] at h4 h5
  simp [decodeCal, encodeCal, h4, h5]

/-- 40_load.md R91, 30_encoding.md R76: the nibble that the field form writes 0 is the one the reading drops. -/
@[simp] theorem reading20_of_bytes (v : BitVec 20) :
    reading20 ((v >>> 12).setWidth 8) ((v >>> 4).setWidth 8) (v.setWidth 8 <<< 4) = v := by
  apply BitVec.eq_of_toNat_eq
  rw [reading20_toNat]
  simp only [BitVec.toNat_setWidth, BitVec.toNat_ushiftRight, BitVec.toNat_shiftLeft, Nat.shiftRight_eq_div_pow,
    Nat.shiftLeft_eq]
  omega

@[simp] theorem readingH_be_highByte_lowByte (v : BitVec 16) : readingH .be (highByte v) (lowByte v) = v :=
  (shiftLeft_or_eq_append (highByte v) (lowByte v)).trans (highByte_append_lowByte v)

@[simp] theorem readingH_le_lowByte_highByte (v : BitVec 16) : readingH .le (lowByte v) (highByte v) = v :=
  (BitVec.or_comm _ _).trans (readingH_be_highByte_lowByte v)

/-- Settles O6: two 20-bit readings, and the humidity reading in either order. -/
theorem rawFieldFormDecodesBack : Obligations.RawFieldFormDecodesBack := by
  intro order r
  cases order with
  | be => simp [decodeRaw, encodeRaw]
  | le => simp [decodeRaw, encodeRaw]

/-- 20_memory.md R46: the three reads, by number. -/
theorem calRegister_toNat (i : Fin 32) :
    (calRegister i).toNat
      = if i.val ≤ 23 then 0x88 + i.val else if i.val = 24 then 0xA1 else 0xE1 + (i.val - 25) := by
  have hi := i.isLt
  unfold calRegister
  split_ifs <;> simp only [BitVec.toNat_add, BitVec.toNat_ofNat] <;> omega

/-- Settles O9: the numbers tell the registers apart, and 0xA0 lies between the first read and the second. -/
theorem imageBytesComeFromTheirRegisters : Obligations.ImageBytesComeFromTheirRegisters := by
  refine ⟨calRegister_toNat, fun i => ?_, fun i j h => ?_, fun i h => ?_⟩
  · have hi := i.isLt
    simp only [rawRegister, BitVec.toNat_add, BitVec.toNat_ofNat]
    omega
  · have hij := congrArg BitVec.toNat h
    rw [calRegister_toNat, calRegister_toNat] at hij
    apply Fin.ext
    split_ifs at hij <;> omega
  · have hnum := congrArg BitVec.toNat h
    rw [calRegister_toNat] at hnum
    split_ifs at hnum <;> simp at hnum <;> omega

end Sys2Proof.Machine
end

section
/-!
PROOFS. What follows from the integer forms of the primitives and the stages (00_scope.md R12; 10_state.md R43;
41_compensate.md R105, R107, R113, R120, R121): the wraps as ring operations, and the ranges of TFINE, T_INT, the
pressure denominator and H_INT.
-/

namespace Sys2Proof.Machine

theorem addW_eq_add {n : Nat} (x y : BitVec n) : addW x y = x + y := by
  rw [addW, wrap, BitVec.ofInt_add, BitVec.ofInt_toInt, BitVec.ofInt_toInt]

theorem mulW_eq_mul {n : Nat} (x y : BitVec n) : mulW x y = x * y := by
  rw [mulW, wrap, BitVec.ofInt_mul, BitVec.ofInt_toInt, BitVec.ofInt_toInt]

/-- 00_scope.md R12: the wrap is congruent to the integer it stands for. -/
theorem wrap_toInt_emod (n : Nat) (z : Int) : ((wrap n z).toInt - z) % 2 ^ n = 0 := by
  have h : (wrap n z).toInt % 2 ^ n = z % 2 ^ n := by
    rw [wrap_toInt]
    exact_mod_cast Int.bmod_emod
  exact Int.emod_eq_emod_iff_emod_sub_eq_zero.1 h

/-- 00_scope.md R12: congruent integers have one wrap. -/
theorem wrap_congr {n : Nat} {y z : Int} (h : (y - z) % 2 ^ n = 0) : wrap n y = wrap n z := by
  apply BitVec.eq_of_toInt_eq
  rw [wrap_toInt, wrap_toInt]
  exact Int.bmod_eq_bmod_iff_bmod_sub_eq_zero.2 (Int.bmod_eq_zero_of_dvd (by exact_mod_cast Int.dvd_of_emod_eq_zero h))

/-- Settles O12: an integer of sN is its own wrap, so it is the wrap of all that is congruent to it; and the wrapped
operations are those of the ring of bit vectors. -/
theorem arithmeticWrapsAsTwosComplement : Obligations.ArithmeticWrapsAsTwosComplement := by
  intro n hn
  refine ⟨fun z => ⟨?_, fun y hlo hhi hcongr => ?_⟩, fun x y => ⟨rfl, rfl, rfl⟩, fun x y z => ?_⟩
  · obtain ⟨hlo, hhi⟩ := toInt_bounds hn (wrap n z)
    exact ⟨hlo, hhi, wrap_toInt_emod n z⟩
  · rw [← wrap_congr hcongr, wrap_toInt_of_bounds hn hlo hhi]
  · simp only [addW_eq_add, mulW_eq_mul]
    exact ⟨BitVec.add_assoc x y z, BitVec.mul_assoc x y z, BitVec.mul_add⟩

/-- 00_scope.md R11: the range of s32 in numerals, for the linear arithmetic below. -/
theorem s32_bounds (x : S32) : -2147483648 ≤ x.toInt ∧ x.toInt ≤ 2147483647 := by
  have h := toInt_bounds (by decide) x
  norm_num at h
  omega

/-- 10_state.md R43: `var1` is a word shifted by 11. -/
theorem tempVar1_bounds (adcT : BitVec 20) (c : Cal) :
    -1048576 ≤ (tempVar1 adcT c).toInt ∧ (tempVar1 adcT c).toInt ≤ 1048575 := by
  unfold tempVar1
  simp only
  rw [asr_toInt (by decide)]
  generalize mulW _ (sext 32 c.dig_T2) = x
  have h := s32_bounds x
  omega

/-- 10_state.md R43: `var2` is a word shifted by 14. -/
theorem tempVar2_bounds (adcT : BitVec 20) (c : Cal) :
    -131072 ≤ (tempVar2 adcT c).toInt ∧ (tempVar2 adcT c).toInt ≤ 131071 := by
  unfold tempVar2
  simp only
  rw [asr_toInt (by decide)]
  generalize mulW _ (sext 32 c.dig_T3) = x
  have h := s32_bounds x
  omega

/-- 41_compensate.md R105 (d): the last sum does not wrap. -/
theorem tempFine_toInt_eq_add (adcT : BitVec 20) (c : Cal) :
    (tempFine adcT c).toInt = (tempVar1 adcT c).toInt + (tempVar2 adcT c).toInt := by
  have h1 := tempVar1_bounds adcT c
  have h2 := tempVar2_bounds adcT c
  rw [tempFine_toInt, Int.bmod_eq_of_le_mul_two] <;> norm_num <;> omega

theorem tempFine_bounds (adcT : BitVec 20) (c : Cal) :
    -1179648 ≤ (tempFine adcT c).toInt ∧ (tempFine adcT c).toInt ≤ 1179646 := by
  have h1 := tempVar1_bounds adcT c
  have h2 := tempVar2_bounds adcT c
  rw [tempFine_toInt_eq_add]
  omega

/-- 41_compensate.md R107: the rounding does not wrap on a t_fine of its range. -/
theorem tempInt_toInt_of_bounds {tf : S32} (hlo : -1179648 ≤ tf.toInt) (hhi : tf.toInt ≤ 1179646) :
    (tempInt tf).toInt = (5 * tf.toInt + 128) / 256 := by
  have hmul : (tf.toInt * 5).bmod (2 ^ 32) = tf.toInt * 5 := by
    rw [Int.bmod_eq_of_le_mul_two] <;> norm_num <;> omega
  have hadd : (tf.toInt * 5 + 128).bmod (2 ^ 32) = tf.toInt * 5 + 128 := by
    rw [Int.bmod_eq_of_le_mul_two] <;> norm_num <;> omega
  rw [tempInt_toInt, hmul, hadd]
  omega

theorem tempInt_tempFine_bounds (adcT : BitVec 20) (c : Cal) :
    -23040 ≤ (tempInt (tempFine adcT c)).toInt ∧ (tempInt (tempFine adcT c)).toInt ≤ 23040 := by
  obtain ⟨hlo, hhi⟩ := tempFine_bounds adcT c
  rw [tempInt_toInt_of_bounds hlo hhi]
  omega

/-- Settles O22: the two terms' ranges bound the sum, and the sum's range bounds the rounding. -/
theorem temperatureRanges : Obligations.TemperatureRanges := by
  intro adcT c
  obtain ⟨hlo, hhi⟩ := tempFine_bounds adcT c
  obtain ⟨htlo, hthi⟩ := tempInt_tempFine_bounds adcT c
  exact ⟨hlo, hhi, htlo, hthi, tempFine_toInt_eq_add adcT c, tempInt_toInt_of_bounds hlo hhi⟩

/-- 41_compensate.md R113: the denominator is 0 where the shift by 33 leaves nothing of the product. -/
theorem presVarP1_eq_zero_iff (tf : S32) (c : Cal) :
    presVarP1 tf c = 0#64 ↔ 0 ≤ (presScaled tf c).toInt ∧ (presScaled tf c).toInt ≤ 2 ^ 33 - 1 := by
  rw [← BitVec.toInt_inj, BitVec.toInt_zero, presVarP1_toInt]
  omega

/-- 41_compensate.md R113: a product with 0. -/
theorem presVarP1_eq_zero_of_dig_P1 (tf : S32) {c : Cal} (h : c.dig_P1 = 0#16) : presVarP1 tf c = 0#64 := by
  have hscaled : (presScaled tf c).toInt = 0 := by
    rw [presScaled_toInt tf c rfl, h]
    simp
  exact (presVarP1_eq_zero_iff tf c).2 (by rw [hscaled]; decide)

/-- 41_compensate.md R113: no division is made, and P_INT is 0. -/
theorem presInt_of_zero_denominator (adcP : BitVec 20) {tf : S32} {c : Cal} (h : presVarP1 tf c = 0#64) :
    presInt adcP tf c = 0#64 := by
  apply BitVec.eq_of_toInt_eq
  rw [presInt_toInt, h, BitVec.toInt_zero, if_pos rfl]

/-- 41_compensate.md R123: +0.0 in every mode. -/
theorem cvtP_zero (mode : PF32Mode) : cvtP mode 0#64 = 0#32 := by
  cases mode <;> decide

/-- Settles O24: COMP completes with the zero's pressure and flag; the range of the product by number. -/
theorem zeroDenominatorGivesZeroPressure : Obligations.ZeroDenominatorGivesZeroPressure := by
  refine ⟨fun s c r hc hr hzero => ?_, fun tf c => ⟨presVarP1_eq_zero_iff tf c, presVarP1_eq_zero_of_dig_P1 tf⟩⟩
  have hp := presInt_of_zero_denominator r.adc_P hzero
  refine ⟨_, _, exec_comp_of_loaded hc hr, rfl, ?_⟩
  rw [compensate_p_f32, compensate_p_int, hp]
  refine ⟨rfl, cvtP_zero _, ?_⟩
  rw [State.writeResult_pDenomZero, compensate_pDenomZero, flagPDenomZero, presDenomZero_eq, hzero]
  rfl

theorem humMax_toInt : humMax.toInt = 419430400 := rfl

/-- 41_compensate.md R120, R121: the clamped value is not negative, so the word's two readings agree. -/
theorem humInt_toNat (v : S32) : ((humInt v).toNat : Int) = max 0 (min v.toInt 419430400) / 4096 := by
  have hint : (humInt v).toInt = max 0 (min v.toInt 419430400) / 4096 := by
    rw [humInt, asr_toInt (by decide), clampW_toInt _ _ _ (by decide), humMax_toInt]
    rfl
  have hpos : 0 ≤ (humInt v).toInt := by omega
  rw [← hint, BitVec.toInt_eq_toNat_of_msb]
  simpa [BitVec.msb_eq_toInt] using hpos

theorem humInt_le (v : S32) : (humInt v).toNat ≤ 102400 := by
  have h := humInt_toNat v
  omega

theorem flagHClampLo_iff (v : S32) : flagHClampLo v = true ↔ v.toInt < 0 := decide_eq_true_iff

theorem flagHClampHi_iff (v : S32) : flagHClampHi v = true ↔ 419430400 < v.toInt := decide_eq_true_iff

/-- 41_compensate.md R120: a value is not below 0 and above the upper bound. -/
theorem not_both_clamp_flags (v : S32) : ¬(flagHClampLo v = true ∧ flagHClampHi v = true) := by
  rw [flagHClampLo_iff, flagHClampHi_iff]
  omega

/-- Settles O26: the clamp by number, and the flags by the two comparisons. -/
theorem humidityClampAndFlags : Obligations.HumidityClampAndFlags :=
  fun v => ⟨humInt_toNat v, humInt_le v, flagHClampLo_iff v, flagHClampHi_iff v, not_both_clamp_flags v⟩

end Sys2Proof.Machine
end

section
/-!
PROOFS. What an instruction can do to the state, as one list (40_load.md R86 to R96, 41_compensate.md R101, R102), and
the properties that every step keeps because each write to the state keeps them (10_state.md R30, R42, R43;
60_exceptions.md R137).
-/

namespace Sys2Proof.Machine

/-- `Effect s i t`: the instruction `i` takes the state `s` to `t`. Every write is a named operation of the state. -/
inductive Effect (s : State) : Instr → State → Prop where
  | ldcalNoOp (img : Vector Byte 32) (hcal : s.cal ≠ none) : Effect s (.ldcal img) s
  | ldcalLoad (img : Vector Byte 32) (hcal : s.cal = none) : Effect s (.ldcal img) (s.loadCal (decodeCal img))
  | ldraw (img : Vector Byte 8) : Effect s (.ldraw img) (s.loadRaw (decodeRaw s.params.adcHOrder img))
  | compFault (cause : FaultCause) (hempty : s.cal = none ∨ s.raw = none) : Effect s .comp (s.takeFault cause)
  | compWrite (c : Cal) (r : Raw) (hcal : s.cal = some c) (hraw : s.raw = some r) :
      Effect s .comp (s.writeResult (compensate s.params.pF32Mode c r))
  | invcalNoOp (hcal : s.cal = none) : Effect s .invcal s
  | invcalClear (hcal : s.cal ≠ none) : Effect s .invcal s.clearCal

/-- The meanings have the effects of the list, and answer a next state in every case. -/
theorem exec_effect (i : Instr) (s : State) : ∃ t, exec i s = .next t ∧ Effect s i t := by
  cases i with
  | ldcal img =>
    by_cases hc : s.cal = none
    · exact ⟨_, exec_ldcal_of_empty img hc, .ldcalLoad img hc⟩
    · exact ⟨_, exec_ldcal_of_loaded img hc, .ldcalNoOp img hc⟩
  | ldraw img => exact ⟨_, execLdraw_eq img s, .ldraw img⟩
  | comp =>
    rcases execComp_cases s with ⟨hc, h⟩ | ⟨_, _, hr, h⟩ | ⟨c, r, hc, hr, h⟩
    · exact ⟨_, h, .compFault _ (.inl hc)⟩
    · exact ⟨_, h, .compFault _ (.inr hr)⟩
    · exact ⟨_, h, .compWrite c r hc hr⟩
  | invcal =>
    by_cases hc : s.cal = none
    · exact ⟨_, exec_invcal_of_empty hc, .invcalNoOp hc⟩
    · exact ⟨_, exec_invcal_of_loaded hc, .invcalClear hc⟩

theorem effect_of_exec {i : Instr} {s t : State} (h : exec i s = .next t) : Effect s i t := by
  obtain ⟨t', ht', heff⟩ := exec_effect i s
  cases ht'.symm.trans h
  exact heff

/-- A property of states that every write to the state keeps. -/
structure KeptByEveryWrite (P : State → Prop) : Prop where
  take : ∀ {s : State} (rest : List HostInput) (n : Nat), P s → P { s with inputs := rest, idx := n }
  reset : ∀ {s : State} (rest : List HostInput), P s → P { State.reset with inputs := rest, params := s.params }
  takeFault : ∀ {s : State} (cause : FaultCause), P s → P (s.takeFault cause)
  loadCal : ∀ {s : State} (c : Cal), P s → P (s.loadCal c)
  clearCal : ∀ {s : State}, P s → P s.clearCal
  loadRaw : ∀ {s : State} (r : Raw), P s → P (s.loadRaw r)
  writeResult : ∀ {s : State} {c : Cal} {r : Raw}, s.cal = some c → s.raw = some r → P s →
    P (s.writeResult (compensate s.params.pF32Mode c r))

theorem KeptByEveryWrite.of_effect {P : State → Prop} (hP : KeptByEveryWrite P) {i : Instr} {s t : State} (hs : P s)
    (h : Effect s i t) : P t := by
  cases h with
  | ldcalNoOp | invcalNoOp => exact hs
  | ldcalLoad img => exact hP.loadCal _ hs
  | ldraw img => exact hP.loadRaw _ hs
  | compFault cause => exact hP.takeFault cause hs
  | compWrite c r hc hr => exact hP.writeResult hc hr hs
  | invcalClear => exact hP.clearCal hs

/-- The induction step of the whole machine: what every write keeps, every step keeps. -/
theorem KeptByEveryWrite.of_step {P : State → Prop} (hP : KeptByEveryWrite P) {s t : State} (hs : P s)
    (h : step s = .next t) : P t := by
  rcases step_next_cases h with ⟨_, rfl⟩ | ⟨rest, _, rfl⟩ | ⟨c, rest, _, hcmd⟩
  · exact hs
  · exact hP.reset rest hs
  · have htaken := hP.take rest (s.idx + 1) hs
    rcases hcmd with ⟨_, rfl⟩ | ⟨r, _, _, rfl⟩ | ⟨i, _, _, hexec⟩
    · exact htaken
    · exact hP.takeFault (rejectCause r) htaken
    · exact hP.of_effect htaken (effect_of_exec hexec)

/-- 10_state.md R42: RESULT_VALID is set only where both files are loaded, and the clamp flags exclude each other. -/
theorem kept_keptByEveryWrite : KeptByEveryWrite State.Kept where
  take _ _ hs := hs
  reset _ _ := by simp [State.Kept, State.reset]
  takeFault _ hs := hs
  loadCal _ hs := ⟨nofun, hs.2⟩
  clearCal hs := ⟨nofun, hs.2⟩
  loadRaw _ hs := ⟨nofun, hs.2⟩
  writeResult hc hr _ := by
    refine ⟨fun _ => by simp [hc, hr], rfl, ?_⟩
    rw [State.writeResult_hClampLo, State.writeResult_hClampHi, compensate_hClampLo, compensate_hClampHi]
    exact not_both_clamp_flags _

/-- 10_state.md R43: only COMP writes TFINE and the results, and what it writes is in range. -/
theorem inRange_keptByEveryWrite : KeptByEveryWrite State.InRange where
  take _ _ hs := hs
  reset _ _ := ⟨rfl, rfl⟩
  takeFault _ hs := hs
  loadCal _ hs := hs
  clearCal hs := hs
  loadRaw _ hs := hs
  writeResult {s c r} _ _ _ := by
    obtain ⟨htlo, hthi⟩ := tempInt_tempFine_bounds r.adc_T c
    simp only [State.InRange, State.writeResult_tfine, State.writeResult_res, Option.all_some, decide_eq_true_eq,
      compensate_tfine, compensate_t_int, compensate_h_int]
    exact ⟨tempFine_bounds r.adc_T c, htlo, hthi, humInt_le _⟩

/-- 60_exceptions.md R137: every fault entry writes one of the four codes. -/
theorem causeCoded_keptByEveryWrite : KeptByEveryWrite State.CauseCoded where
  take _ _ hs := hs
  reset _ _ := Nat.zero_le 4
  takeFault cause _ := by
    rcases cause.code_toNat with h | h | h | h <;> simp [State.CauseCoded, h]
  loadCal _ hs := hs
  clearCal hs := hs
  loadRaw _ hs := hs
  writeResult _ _ hs := hs

/-- 10_state.md R30: COMP is the one write that sets RESULT_VALID, and every write to a file clears it. -/
theorem current_keptByEveryWrite : KeptByEveryWrite State.Current where
  take _ _ hs := hs
  reset _ _ := nofun
  takeFault _ hs := hs
  loadCal _ _ := nofun
  clearCal _ := nofun
  loadRaw _ _ := nofun
  writeResult {s c r} hc hr _ _ := ⟨c, r, hc, hr, by simp⟩

/-- Settles O41: each of the three properties is kept by every write. -/
theorem stepKeepsTheInvariants : Obligations.StepKeepsTheInvariants := fun _ _ hkept hrange hcause h =>
  ⟨kept_keptByEveryWrite.of_step hkept h, inRange_keptByEveryWrite.of_step hrange h,
    causeCoded_keptByEveryWrite.of_step hcause h⟩

/-- Settles O42: the meaning of RESULT_VALID is kept by every write. -/
theorem stepKeepsResultsCurrent : Obligations.StepKeepsResultsCurrent :=
  fun _ _ => current_keptByEveryWrite.of_step

/-- Settles O43: after reset no register holds a value and no bit is set. -/
theorem resetHasTheInvariants : Obligations.ResetHasTheInvariants :=
  ⟨by decide, by decide, by decide, nofun⟩

/-- Settles O47: no write touches the parameters. -/
theorem parametersStayFixed : Obligations.ParametersStayFixed := by
  intro s t h
  have hfixed : KeptByEveryWrite fun u => u.params = s.params :=
    { take := fun _ _ hs => hs
      reset := fun _ hs => hs
      takeFault := fun _ hs => hs
      loadCal := fun _ hs => hs
      clearCal := fun hs => hs
      loadRaw := fun _ hs => hs
      writeResult := fun _ _ hs => hs }
  exact hfixed.of_step rfl h

/-- Settles O40: every instruction has an effect, and a step is idle, a reset or an entry step. -/
theorem everyCommandIsTotal : Obligations.EveryCommandIsTotal := by
  refine ⟨fun i s => ?_, fun s => ?_⟩
  · obtain ⟨t, h, _⟩ := exec_effect i s
    exact ⟨t, h⟩
  · rcases step_cases s with ⟨_, h⟩ | ⟨_, _, h⟩ | ⟨c, _, _, h⟩
    · exact ⟨_, h⟩
    · exact ⟨_, h⟩
    · obtain ⟨t, ht, _⟩ := stepCommand_next_idx c s.dropInput
      exact ⟨t, h.trans ht⟩

/-- Settles O49: a load finds the file it has loaded, an INVCAL the file it has emptied, and a COMP the files it has
read. -/
theorem everyCommandIsIdempotent : Obligations.EveryCommandIsIdempotent := by
  intro i s
  cases i with
  | ldcal img =>
    by_cases hc : s.cal = none
    · exact ⟨_, exec_ldcal_of_empty img hc, exec_ldcal_of_loaded img (by simp)⟩
    · exact ⟨_, exec_ldcal_of_loaded img hc, exec_ldcal_of_loaded img hc⟩
  | ldraw img => exact ⟨_, execLdraw_eq img s, execLdraw_eq img _⟩
  | comp =>
    rcases execComp_cases s with ⟨hc, h⟩ | ⟨c, hc, hr, h⟩ | ⟨c, r, hc, hr, h⟩
    · exact ⟨_, h, exec_comp_of_empty_cal hc⟩
    · exact ⟨_, h, exec_comp_of_empty_raw (by simp [hc]) hr⟩
    · exact ⟨_, h, exec_comp_of_loaded hc hr⟩
  | invcal =>
    by_cases hc : s.cal = none
    · exact ⟨_, exec_invcal_of_empty hc, exec_invcal_of_empty hc⟩
    · exact ⟨_, exec_invcal_of_loaded hc, exec_invcal_of_empty rfl⟩

/-- Settles O19: COMP's two preconditions in their order. -/
theorem compFaultsOnItsPreconditions : Obligations.CompFaultsOnItsPreconditions :=
  fun _ => ⟨exec_comp_of_empty_cal, exec_comp_of_empty_raw⟩

end Sys2Proof.Machine
end

section
/-!
PROOFS. STATUS bit by bit (10_state.md R31, R32, R44), as a mask after each instruction (40_load.md R99,
41_compensate.md R126), and which reads it tells (10_state.md R42).
-/

namespace Sys2Proof.Machine

/-- 10_state.md R31: the flag at bit `i` of STATUS; bit 6 and what lies above bit 7 have none. -/
def State.statusFlag (s : State) : Nat → Bool
  | 0 => s.cal.isSome
  | 1 => s.raw.isSome
  | 2 => s.resultValid
  | 3 => s.pDenomZero
  | 4 => s.hClampLo
  | 5 => s.hClampHi
  | 7 => s.fault
  | _ => false

theorem statusBit_getLsbD (b : Bool) (k : Nat) {i : Nat} (hi : i < 8) :
    (statusBit b k).getLsbD i = (decide (i = k) && b) := by
  cases b with
  | false => simp [statusBit]
  | true => grind [statusBit]

theorem status_getLsbD (s : State) {i : Nat} (hi : i < 8) : s.status.getLsbD i = s.statusFlag i := by
  simp only [State.status, BitVec.getLsbD_or, statusBit_getLsbD _ _ hi]
  interval_cases i <;> simp [State.statusFlag]

/-- Two bytes are equal when STATUS's flags say so bit by bit. -/
theorem status_eq_of_flags {s : State} {x : BitVec 8} (h : ∀ i < 8, s.statusFlag i = x.getLsbD i) : s.status = x :=
  BitVec.eq_of_getLsbD_eq fun i hi => (status_getLsbD s hi).trans (h i hi)

theorem fault_eq_decide (s : State) : s.fault = decide (s.faultCause ≠ 0#8) := by
  rw [Bool.eq_iff_iff, s.fault_eq_true_iff, decide_eq_true_iff]

/-- Settles O50: the flags at their places. -/
theorem statusLayout : Obligations.StatusLayout := fun s =>
  ⟨status_getLsbD s (i := 0) (by decide), status_getLsbD s (i := 1) (by decide), status_getLsbD s (i := 2) (by decide),
    status_getLsbD s (i := 3) (by decide), status_getLsbD s (i := 4) (by decide), status_getLsbD s (i := 5) (by decide),
    status_getLsbD s (i := 6) (by decide),
    (status_getLsbD s (i := 7) (by decide)).trans (fault_eq_decide s)⟩

/-- 40_load.md R99: a loading LDCAL. -/
theorem loadCal_status (c : Cal) (s : State) : (s.loadCal c).status = (s.status ||| 0x01#8) &&& 0xFB#8 := by
  refine status_eq_of_flags fun i hi => ?_
  rw [BitVec.getLsbD_and, BitVec.getLsbD_or, status_getLsbD s hi]
  interval_cases i <;> simp [State.statusFlag, State.fault]

/-- 40_load.md R99: LDRAW. -/
theorem loadRaw_status (r : Raw) (s : State) : (s.loadRaw r).status = (s.status ||| 0x02#8) &&& 0xFB#8 := by
  refine status_eq_of_flags fun i hi => ?_
  rw [BitVec.getLsbD_and, BitVec.getLsbD_or, status_getLsbD s hi]
  interval_cases i <;> simp [State.statusFlag, State.fault]

/-- 40_load.md R99: an emptying INVCAL. -/
theorem clearCal_status (s : State) : s.clearCal.status = s.status &&& 0xFA#8 := by
  refine status_eq_of_flags fun i hi => ?_
  rw [BitVec.getLsbD_and, status_getLsbD s hi]
  interval_cases i <;> simp [State.statusFlag, State.fault]

/-- 60_exceptions.md R138: fault entry, in any state. -/
theorem takeFault_status_eq_or (cause : FaultCause) (s : State) :
    (s.takeFault cause).status = s.status ||| 0x80#8 := by
  refine status_eq_of_flags fun i hi => ?_
  rw [BitVec.getLsbD_or, status_getLsbD s hi]
  interval_cases i <;> simp [State.statusFlag]

/-- 41_compensate.md R126: a completing COMP sets bit 2, and bits 3 to 5 are those of its results. -/
theorem writeResult_status_mask (o : CompResult) (s : State) :
    (s.writeResult o).status &&& 0xC7#8 = (s.status ||| 0x04#8) &&& 0xC7#8 := by
  refine BitVec.eq_of_getLsbD_eq fun i hi => ?_
  simp only [BitVec.getLsbD_and, BitVec.getLsbD_or, status_getLsbD _ hi]
  interval_cases i <;> simp [State.statusFlag, State.fault]

/-- Settles O51: each instruction's effect as its mask. -/
theorem statusAfterEachCommand : Obligations.StatusAfterEachCommand := by
  intro s t img raw
  refine ⟨fun h => ?_, fun h => ?_, fun h => ?_, fun h => ?_⟩
  · cases effect_of_exec h with
    | ldcalNoOp _ hc => rw [if_neg hc]
    | ldcalLoad _ hc => rw [if_pos hc, loadCal_status]
  · cases effect_of_exec h with
    | ldraw => exact loadRaw_status _ s
  · cases effect_of_exec h with
    | invcalNoOp hc => rw [if_pos hc]
    | invcalClear hc => rw [if_neg hc, clearCal_status]
  · cases effect_of_exec h with
    | compFault cause hempty => rw [if_pos hempty, takeFault_status_eq_or]
    | compWrite c r hc hr =>
      rw [if_neg (by simp [hc, hr])]
      exact writeResult_status_mask _ s

/-- 10_state.md R20: the registers outside the three files. -/
theorem eq_status_or_faultCause {r : Register} (hcal : r.inCal = false) (hraw : r.inRaw = false)
    (hres : r.inResults = false) : r = .status ∨ r = .faultCause := by
  cases r <;> simp_all [Register.inCal, Register.inRaw, Register.inResults]

/-- Settles O52: a register of a file is that file's, and STATUS tells which file holds values. -/
theorem hostReadsFollowTheValidBits : Obligations.HostReadsFollowTheValidBits := by
  intro s r
  refine ⟨fun hr => ?_, fun hr => ?_, fun hcal hraw hres => ?_⟩
  · exact (hostRead_isSome_cal s hr).trans (status_getLsbD s (i := 0) (by decide)).symm
  · exact (hostRead_isSome_raw s hr).trans (status_getLsbD s (i := 1) (by decide)).symm
  · rcases eq_status_or_faultCause hcal hraw hres with rfl | rfl
    · rfl
    · rfl

end Sys2Proof.Machine
end

section
/-!
PROOFS. What each instruction and each step leaves alone (10_state.md R23 to R29; 40_load.md R88, R93, R95;
41_compensate.md R127, R128): the frames, read off the list of effects.
-/

namespace Sys2Proof.Machine

theorem hostRead_congr_files {s t : State} {r : Register} (hfile : r.inCal = true ∨ r.inRaw = true)
    (hcal : t.cal = s.cal) (hraw : t.raw = s.raw) : t.hostRead r = s.hostRead r := by
  rcases hfile with hr | hr
  · exact hostRead_congr_cal hr hcal
  · exact hostRead_congr_raw hr hraw

/-- A register of neither file, other than STATUS, is TFINE, a result or FAULT_CAUSE. -/
theorem hostRead_congr_outside_files {s t : State} {r : Register} (hstatus : r ≠ .status) (hcal : r.inCal = false)
    (hraw : r.inRaw = false) (htf : t.tfine = s.tfine) (hres : t.res = s.res) (hcause : t.faultCause = s.faultCause) :
    t.hostRead r = s.hostRead r := by
  cases hr : r.inResults with
  | true => exact hostRead_congr_results hr htf hres
  | false =>
    rcases eq_status_or_faultCause hcal hraw hr with rfl | rfl
    · exact absurd rfl hstatus
    · exact congrArg some hcause

/-- What COMP alone writes: TFINE, the results, the condition flags and, by a fault, FAULT_CAUSE. -/
structure SameResults (s t : State) : Prop where
  tfine : t.tfine = s.tfine
  res : t.res = s.res
  pDenomZero : t.pDenomZero = s.pDenomZero
  hClampLo : t.hClampLo = s.hClampLo
  hClampHi : t.hClampHi = s.hClampHi

/-- 40_load.md sections 2 to 4: LDCAL, LDRAW and INVCAL write no result and never fault. -/
theorem Effect.sameResults {i : Instr} {s t : State} (h : Effect s i t) (hi : i ≠ .comp) :
    SameResults s t ∧ t.faultCause = s.faultCause := by
  cases h with
  | compFault | compWrite => exact absurd rfl hi
  | _ => exact ⟨⟨rfl, rfl, rfl, rfl, rfl⟩, rfl⟩

/-- 10_state.md R25. -/
theorem Effect.raw_eq {i : Instr} {s t : State} (h : Effect s i t) (hi : ∀ img, i ≠ .ldraw img) : t.raw = s.raw := by
  cases h with
  | ldraw img => exact absurd rfl (hi img)
  | _ => rfl

/-- 60_exceptions.md R140: the index, the inputs and the parameters are not an instruction's to write. -/
theorem Effect.frame {i : Instr} {s t : State} (h : Effect s i t) :
    t.idx = s.idx ∧ t.inputs = s.inputs ∧ t.params = s.params := by
  cases h <;> exact ⟨rfl, rfl, rfl⟩

/-- Settles O18: LDCAL and INVCAL write the calibration file, LDRAW the raw file, and each RESULT_VALID. -/
theorem loadFamilyFrame : Obligations.LoadFamilyFrame := by
  intro i s t hi hexec
  have h := effect_of_exec hexec
  obtain ⟨hsame, hcause⟩ := h.sameResults hi
  refine ⟨fun r hstatus hcal hraw =>
      hostRead_congr_outside_files hstatus hcal hraw hsame.tfine hsame.res hcause,
    fun hldraw r hr => hostRead_congr_raw hr (h.raw_eq hldraw), ?_, hsame.pDenomZero, hsame.hClampLo, hsame.hClampHi,
    hcause, h.frame⟩
  rintro ⟨img, rfl⟩ r hr
  cases h
  exact hostRead_congr_cal hr rfl

/-- Settles O31: a fault writes FAULT_CAUSE only, and a completing COMP writes results and flags only. -/
theorem compFrame : Obligations.CompFrame := by
  intro s t hexec
  have h := effect_of_exec hexec
  obtain ⟨hidx, hinputs, hparams⟩ := h.frame
  cases h with
  | compFault cause hempty =>
    refine ⟨fun r hfile => hostRead_congr_files hfile rfl rfl, hidx, hinputs, hparams, fun hc hr => ?_, fun _ =>
      ⟨fun r h1 h2 => hostRead_congr h1 h2 rfl rfl rfl rfl, rfl, rfl, rfl, rfl⟩⟩
    exact (hempty.elim hc hr).elim
  | compWrite c r hc hr =>
    refine ⟨fun r hfile => hostRead_congr_files hfile rfl rfl, hidx, hinputs, hparams, fun _ _ => rfl,
      fun hempty => ?_⟩
    simp [hc, hr] at hempty

/-- Settles O44: an idle, ignored or rejected input writes no result, nor does an instruction other than COMP. -/
theorem onlyCompWritesResults : Obligations.OnlyCompWritesResults := by
  intro s t h hreset hcomp
  have hsame : SameResults s t := by
    rcases step_next_cases h with ⟨_, rfl⟩ | ⟨rest, hi, _⟩ | ⟨c, rest, hi, hcmd⟩
    · exact ⟨rfl, rfl, rfl, rfl, rfl⟩
    · exact absurd hi (hreset rest)
    rcases hcmd with ⟨_, rfl⟩ | ⟨_, _, _, rfl⟩ | ⟨i, _, hd, hexec⟩
    · exact ⟨rfl, rfl, rfl, rfl, rfl⟩
    · exact ⟨rfl, rfl, rfl, rfl, rfl⟩
    · have hi' : i ≠ .comp := by
        rintro rfl
        exact hcomp c rest hi hd
      obtain ⟨⟨h1, h2, h3, h4, h5⟩, _⟩ := (effect_of_exec hexec).sameResults hi'
      exact ⟨h1, h2, h3, h4, h5⟩
  exact ⟨fun r hr => hostRead_congr_results hr hsame.tfine hsame.res, hsame.pDenomZero, hsame.hClampLo, hsame.hClampHi⟩

/-- Settles O45: of all that a step can do, a reset, a loading LDCAL and an emptying INVCAL write the file. -/
theorem onlyLoadAndInvalidateChangeCalibration : Obligations.OnlyLoadAndInvalidateChangeCalibration := by
  intro s t h hchanged
  rcases step_next_cases h with ⟨_, rfl⟩ | ⟨rest, hi, rfl⟩ | ⟨c, rest, hi, hcmd⟩
  · exact absurd rfl hchanged
  · exact .inl ⟨rest, hi, rfl⟩
  rcases hcmd with ⟨_, rfl⟩ | ⟨_, _, _, rfl⟩ | ⟨i, _, hd, hexec⟩
  · exact absurd rfl hchanged
  · exact absurd rfl hchanged
  cases effect_of_exec hexec with
  | ldcalLoad img hcal => exact .inr (.inl ⟨c, rest, img, hi, hd, hcal, rfl⟩)
  | invcalClear => exact .inr (.inr ⟨c, rest, hi, hd, rfl⟩)
  | _ => exact absurd rfl hchanged

/-- Settles O46: of all that a step can do, a reset and an LDRAW write the file. -/
theorem onlyLdrawAndResetChangeRaw : Obligations.OnlyLdrawAndResetChangeRaw := by
  intro s t h hchanged
  rcases step_next_cases h with ⟨_, rfl⟩ | ⟨rest, hi, rfl⟩ | ⟨c, rest, hi, hcmd⟩
  · exact absurd rfl hchanged
  · exact .inl ⟨rest, hi, rfl⟩
  rcases hcmd with ⟨_, rfl⟩ | ⟨_, _, _, rfl⟩ | ⟨i, _, hd, hexec⟩
  · exact absurd rfl hchanged
  · exact absurd rfl hchanged
  cases effect_of_exec hexec with
  | ldraw img => exact .inr ⟨c, rest, img, hi, hd, rfl⟩
  | _ => exact absurd rfl hchanged

end Sys2Proof.Machine
end

section
/-!
PROOFS. Runs of several steps (20_memory.md R55; 60_exceptions.md R140, R142, R152; 70_reset_and_hazards.md R157, R158):
an idle and a faulted engine, the boot order, the right chip's calibration, and a run cut in two.
-/

namespace Sys2Proof.Machine

/-- Log entry 3: nothing issued, nothing done. -/
theorem step_of_idle {s : State} (h : s.inputs = []) : step s = .next s := by
  rcases step_cases s with ⟨_, hs⟩ | ⟨_, hi, _⟩ | ⟨_, _, hi, _⟩
  · exact hs
  · cases h.symm.trans hi
  · cases h.symm.trans hi

/-- Settles O57: by induction on the number of steps. -/
theorem idleEngineHoldsItsState : Obligations.IdleEngineHoldsItsState := by
  intro n s h
  induction n with
  | zero => rfl
  | succ n ih => exact (run_succ_of_step (M := core) (step_of_idle h) n).trans ih

/-- Settles O36: by induction on the commands, each of which is ignored. -/
theorem faultedEngineIgnoresEveryCommand : Obligations.FaultedEngineIgnoresEveryCommand := by
  intro cs
  induction cs with
  | nil =>
    rintro s rest _ rfl
    rfl
  | cons c cs ih =>
    intro s rest hf hi
    rw [List.length_cons, run_succ_of_step (M := core) (step_of_faulted hf hi), ih _ rest (by exact hf) rfl,
      Nat.add_assoc, Nat.add_comm 1]

/-- Settles O33: the placed word's command is the next input, and the entry step dispatches it. -/
theorem placedWordRunsNext : Obligations.PlacedWordRunsNext := by
  intro s nbits w i hf hword
  unfold decodeTableWord at hword
  split at hword
  · cases hword
  rename_i c hc
  split at hword
  · rename_i hd
    cases hword
    rw [State.withFetchWord, placeTableWord, hc]
    exact step_of_decoded (c := c) (rest := s.inputs) hf rfl hd
  · cases hword

/-- A step of an unfaulted engine that takes an instruction's own pair is the instruction's. -/
theorem step_of_encoded {s : State} {i : Instr} {rest : List HostInput} (hf : s.faultCause = 0#8)
    (hi : s.inputs = .command (encodeCommand i) :: rest) :
    step s = exec i { s with inputs := rest, idx := s.idx + 1 } :=
  step_of_decoded hf hi (decodeCommand_encodeCommand i)

/-! The three commands of the boot order, as steps of an engine that is given by its record. -/

theorem run_succ_of_ldcal {s : State} {img : Vector Byte 32} {rest : List HostInput} (k : Nat)
    (hf : s.faultCause = 0#8) (hc : s.cal = none) (hi : s.inputs = .command (encodeCommand (.ldcal img)) :: rest) :
    Host.Core.run core (k + 1) s
      = Host.Core.run core k (State.loadCal (decodeCal img) { s with inputs := rest, idx := s.idx + 1 }) :=
  run_succ_of_step (M := core) ((step_of_encoded hf hi).trans (exec_ldcal_of_empty img hc)) k

theorem run_succ_of_ldraw {s : State} {img : Vector Byte 8} {rest : List HostInput} (k : Nat)
    (hf : s.faultCause = 0#8) (hi : s.inputs = .command (encodeCommand (.ldraw img)) :: rest) :
    Host.Core.run core (k + 1) s
      = Host.Core.run core k
          (State.loadRaw (decodeRaw s.params.adcHOrder img) { s with inputs := rest, idx := s.idx + 1 }) :=
  run_succ_of_step (M := core) ((step_of_encoded hf hi).trans (execLdraw_eq img _)) k

theorem run_one_of_comp {s : State} {c : Cal} {r : Raw} (hf : s.faultCause = 0#8) (hc : s.cal = some c)
    (hr : s.raw = some r) (hi : s.inputs = [.command (encodeCommand .comp)]) :
    Host.Core.run core 1 s
      = .next (State.writeResult (compensate s.params.pF32Mode c r) { s with inputs := [], idx := s.idx + 1 }) :=
  run_succ_of_step (M := core) ((step_of_encoded hf hi).trans (exec_comp_of_loaded hc hr)) 0

/-- Settles O53: in either order the two loads leave both files for the COMP. -/
theorem bootOrderGivesResults : Obligations.BootOrderGivesResults := by
  rintro p img sample cs (rfl | rfl)
  · exact ⟨_, (run_succ_of_ldcal 2 rfl rfl rfl).trans ((run_succ_of_ldraw 1 rfl rfl).trans
      (run_one_of_comp rfl rfl rfl rfl)), rfl, ⟨rfl, rfl⟩, rfl, rfl, rfl⟩
  · exact ⟨_, (run_succ_of_ldraw 2 rfl rfl).trans ((run_succ_of_ldcal 1 rfl rfl rfl).trans
      (run_one_of_comp rfl rfl rfl rfl)), rfl, ⟨rfl, rfl⟩, rfl, rfl, rfl⟩

/-- 20_memory.md R46: a calibration image byte is the content of its register. -/
theorem calImageOf_getElem (sensor : Byte → Byte) {k : Nat} (hk : k < 32) :
    (calImageOf sensor)[k] = sensor (calRegister ⟨k, hk⟩) := by
  rw [calImageOf, Vector.getElem_ofFn]

/-- Settles O56: the host's one command is the LDCAL of the sensor's registers. -/
theorem dutifulOpenLoadsOnlyTheRightChip : Obligations.DutifulOpenLoadsOnlyTheRightChip := by
  intro sensor
  refine ⟨fun hother => if_neg hother, fun hchip s rest hf hc hi => ?_⟩
  have hopen : hostOpen sensor = [encodeCommand (.ldcal (calImageOf sensor))] := if_pos hchip
  rw [hopen] at hi
  refine ⟨_, (step_of_encoded hf hi).trans (exec_ldcal_of_empty _ hc), rfl, ?_⟩
  simp only [decodeCal, unsigned16_toNat, signed16_toInt, packH4_toInt, packH5_toInt, calImageOf_getElem]
  exact ⟨rfl, rfl, rfl, rfl, rfl, rfl, rfl, rfl, rfl, rfl, rfl, rfl, rfl, rfl, rfl, rfl, rfl, rfl⟩

/-- COMP's write and the host's inputs are apart (stated for any result, so that none is computed). -/
theorem writeResult_inputs (o : CompResult) (s : State) (later : List HostInput) :
    State.writeResult o { s with inputs := later } = { s.writeResult o with inputs := later } := rfl

/-- 60_exceptions.md R140: an instruction's effect does not depend on what the host has issued after it. -/
theorem exec_inputs_irrelevant (i : Instr) (s : State) :
    ∃ t : State, ∀ later, exec i { s with inputs := later } = .next { t with inputs := later } := by
  cases i with
  | ldcal img =>
    by_cases hc : s.cal = none
    · exact ⟨s.loadCal (decodeCal img), fun _ => exec_ldcal_of_empty img hc⟩
    · exact ⟨s, fun _ => exec_ldcal_of_loaded img hc⟩
  | ldraw img => exact ⟨s.loadRaw (decodeRaw s.params.adcHOrder img), fun _ => execLdraw_eq img _⟩
  | comp =>
    rcases execComp_cases s with ⟨hc, _⟩ | ⟨c, hc, hr, _⟩ | ⟨c, r, hc, hr, _⟩
    · exact ⟨s.takeFault .calNotValid, fun later => exec_comp_of_empty_cal (s := { s with inputs := later }) hc⟩
    · exact ⟨s.takeFault .rawNotLoaded, fun later =>
        exec_comp_of_empty_raw (s := { s with inputs := later }) (by simp [hc]) hr⟩
    · refine ⟨s.writeResult (compensate s.params.pF32Mode c r), fun later => ?_⟩
      rw [← writeResult_inputs]
      exact exec_comp_of_loaded (s := { s with inputs := later }) hc hr
  | invcal =>
    by_cases hc : s.cal = none
    · exact ⟨s, fun _ => exec_invcal_of_empty hc⟩
    · exact ⟨s.clearCal, fun _ => exec_invcal_of_loaded hc⟩

/-- 20_memory.md R55: a step takes the oldest input and leaves the later ones, on which its effect does not depend. -/
theorem step_inputs_irrelevant (x : HostInput) (s : State) :
    ∃ t : State, ∀ later, step { s with inputs := x :: later } = .next { t with inputs := later } := by
  cases x with
  | reset => exact ⟨s.hostReset, fun _ => step_of_reset rfl⟩
  | command c =>
    by_cases hf : s.faultCause = 0#8
    case neg => exact ⟨s.advance, fun later => step_of_faulted (s := { s with inputs := .command c :: later }) hf rfl⟩
    rcases decodeCommand_ok_or_error c with ⟨i, _, hd⟩ | ⟨_, _, _, hd⟩ | ⟨_, hd⟩
    · obtain ⟨t, ht⟩ := exec_inputs_irrelevant i s.advance
      exact ⟨t, fun later =>
        (step_of_decoded (s := { s with inputs := .command c :: later }) hf rfl hd).trans (ht later)⟩
    · exact ⟨s.advance.takeFault .badLength, fun later =>
        step_of_rejected (s := { s with inputs := .command c :: later }) hf rfl hd⟩
    · exact ⟨s.advance.takeFault .illegalCommand, fun later =>
        step_of_rejected (s := { s with inputs := .command c :: later }) hf rfl hd⟩

/-- 20_memory.md R55 over a whole run, by induction on the inputs it takes. -/
theorem run_inputs_irrelevant (first : List HostInput) (s : State) :
    ∃ t : State, ∀ later,
      Host.Core.run core first.length { s with inputs := first ++ later } = .next { t with inputs := later } := by
  induction first generalizing s with
  | nil => exact ⟨s, fun _ => rfl⟩
  | cons x first ih =>
    obtain ⟨u, hu⟩ := step_inputs_irrelevant x s
    obtain ⟨t, ht⟩ := ih u
    exact ⟨t, fun later => (run_succ_of_step (M := core) (hu (first ++ later)) _).trans (ht later)⟩

/-- A run cut in two: the second part goes on where the first one ended. -/
theorem run_add_of_run {M : Host.Core} {j : Nat} {s t : M.State} (h : M.run j s = .next t) (k : Nat) :
    M.run (j + k) s = M.run k t := by
  induction j generalizing s with
  | zero =>
    cases h
    rw [Nat.zero_add]
  | succ j ih =>
    rw [Nat.succ_add, Host.Core.run]
    rw [Host.Core.run] at h
    cases hs : M.step s with
    | next u =>
      rw [hs] at h
      exact ih h
    | fault r | refused r =>
      rw [hs] at h
      cases h

/-- Settles O55: the first list's run reaches one state whatever is behind it, and the second list's goes on from it. -/
theorem laterInputsDoNotReachBack : Obligations.LaterInputsDoNotReachBack := by
  intro first later s _
  obtain ⟨t, ht⟩ := run_inputs_irrelevant first s
  have halone := ht []
  rw [List.append_nil] at halone
  exact ⟨{ t with inputs := [] }, halone, rfl, ht later, run_add_of_run (M := core) (ht later) later.length⟩

end Sys2Proof.Machine
end

section
/-!
PROOFS. The assembler's lines (30_encoding.md R75 to R77): one equation per mnemonic, raw forms by their values, and
field forms by the fields a record spells.
-/

namespace Sys2Proof.Machine

/-! What a line assembles to, by its mnemonic (30_encoding.md R75, R77). -/

section Mnemonics

variable (order : AdcHOrder) (os : List AsmOperand)

theorem assembleLine_ldcal :
    assembleLine order "LDCAL".toList os = (calOperands os).map fun img => [.ldcal img] := by
  rw [assembleLine, if_pos rfl]

theorem assembleLine_ldraw :
    assembleLine order "LDRAW".toList os = (rawOperands order os).map fun img => [.ldraw img] := by
  rw [assembleLine, if_neg (by decide), if_pos rfl]

theorem assembleLine_invcal :
    assembleLine order "INVCAL".toList os = if os = [] then some [.invcal] else none := by
  rw [assembleLine, if_neg (by decide), if_neg (by decide), if_neg (by decide), if_pos rfl]

theorem assembleLine_open :
    assembleLine order "OPEN".toList os = (calOperands os).map fun img => [.ldcal img] := by
  rw [assembleLine, if_neg (by decide), if_neg (by decide), if_neg (by decide), if_neg (by decide), if_pos rfl]

theorem assembleLine_close :
    assembleLine order "CLOSE".toList os = if os = [] then some [.invcal] else none := by
  rw [assembleLine, if_neg (by decide), if_neg (by decide), if_neg (by decide), if_neg (by decide),
    if_neg (by decide), if_pos rfl]

theorem assembleLine_measure :
    assembleLine order "MEASURE".toList os = (rawOperands order os).map fun img => [.ldraw img, .comp] := by
  rw [assembleLine, if_neg (by decide), if_neg (by decide), if_neg (by decide), if_neg (by decide),
    if_neg (by decide), if_neg (by decide), if_pos rfl]

end Mnemonics

/-- Settles O8: the mnemonics' equations, side by side. -/
theorem pseudoInstructionsExpand : Obligations.PseudoInstructionsExpand := by
  intro order os
  refine ⟨?_, ?_, ?_⟩
  · rw [assembleLine_open, assembleLine_ldcal]
  · rw [assembleLine_close, assembleLine_invcal]
  · rw [assembleLine_measure, assembleLine_ldraw, Option.map_map]
    rfl

/-! Raw forms. -/

/-- 30_encoding.md R75: a raw form is taken, as `img`, exactly when its values are the bytes of `img`. -/
theorem rawForm_eq_some_iff {n : Nat} {os : List AsmOperand} {vs : List Int} (h : plainValues os = some vs)
    (img : Vector Byte n) : rawForm n os = some img ↔ img.toList.map (fun b => (b.toNat : Int)) = vs := by
  simp only [rawForm, h, Option.bind_some, Option.bind_eq_some_iff, bytesOf_eq_some_iff, imageOf_eq_some_iff]
  constructor
  · rintro ⟨_, hbytes, rfl⟩
    exact hbytes
  · exact fun hbytes => ⟨_, hbytes, rfl⟩

/-- 30_encoding.md R75: what the assembler refuses. -/
theorem rawForm_eq_none {n : Nat} {os : List AsmOperand} {vs : List Int} (h : plainValues os = some vs)
    (hbad : vs.length ≠ n ∨ ∃ v ∈ vs, v < 0 ∨ 255 < v) : rawForm n os = none := by
  refine Option.eq_none_iff_forall_ne_some.2 fun img himg => ?_
  obtain rfl := (rawForm_eq_some_iff h img).1 himg
  rcases hbad with hlen | ⟨v, hv, hrange⟩
  · simp at hlen
  · obtain ⟨b, _, rfl⟩ := List.mem_map.1 hv
    have hb := b.isLt
    omega

/-- 30_encoding.md R75: what the assembler takes. -/
theorem exists_rawForm {n : Nat} {os : List AsmOperand} {vs : List Int} (h : plainValues os = some vs)
    (hlen : vs.length = n) (hrange : ∀ v ∈ vs, 0 ≤ v ∧ v ≤ 255) :
    ∃ img : Vector Byte n, rawForm n os = some img ∧ img.toList.map (fun b => (b.toNat : Int)) = vs := by
  have hbytes : (vs.map (BitVec.ofInt 8)).map (fun b => (b.toNat : Int)) = vs := by
    rw [List.map_map, List.map_congr_left (g := id), List.map_id]
    intro v hv
    have hv' := hrange v hv
    simp only [Function.comp_apply, BitVec.toNat_ofInt, id]
    omega
  exact ⟨⟨⟨vs.map (BitVec.ofInt 8)⟩, by simpa using hlen⟩, (rawForm_eq_some_iff h _).2 hbytes, hbytes⟩

/-- Plain operands are no field form: only a line without operands is both, and it has too few of either. -/
theorem namedFields_eq_none_or_nil {os : List AsmOperand} {vs : List Int} (h : plainValues os = some vs) :
    namedFields os = none ∨ os = [] := by
  match os, h with
  | [], _ => exact .inr rfl
  | .value _ :: _, _ => exact .inl rfl

theorem rawOperands_of_plainValues (order : AdcHOrder) {os : List AsmOperand} {vs : List Int}
    (h : plainValues os = some vs) : rawOperands order os = rawForm 8 os := by
  rcases namedFields_eq_none_or_nil h with hnone | rfl
  · rw [rawOperands, hnone]
  · rfl

theorem calOperands_of_plainValues {os : List AsmOperand} {vs : List Int} (h : plainValues os = some vs) :
    calOperands os = rawForm 32 os := by
  rcases namedFields_eq_none_or_nil h with hnone | rfl
  · rw [calOperands, hnone]
  · rfl

/-- Settles O58: a raw form is refused or taken alike in both commands, at 8 and at 32 bytes. -/
theorem assemblerRefusesBadRawForms : Obligations.AssemblerRefusesBadRawForms := by
  intro order os vs h
  simp only [assembleLine_ldraw, assembleLine_ldcal, rawOperands_of_plainValues order h, calOperands_of_plainValues h]
  refine ⟨fun hbad => ?_, fun hlen hrange => ?_, fun hbad => ?_, fun hlen hrange => ?_⟩
  · rw [rawForm_eq_none h hbad, Option.map_none]
  · obtain ⟨img, himg, hvs⟩ := exists_rawForm h hlen hrange
    exact ⟨img, by rw [himg, Option.map_some], hvs⟩
  · rw [rawForm_eq_none h hbad, Option.map_none]
  · obtain ⟨img, himg, hvs⟩ := exists_rawForm h hlen hrange
    exact ⟨img, by rw [himg, Option.map_some], hvs⟩

/-! Field forms. -/

/-- The three named fields of a raw record (30_encoding.md R75). -/
def rawFieldList (r : Raw) : List (List Char × Int) :=
  [("P".toList, r.adc_P.toNat), ("T".toList, r.adc_T.toNat), ("H".toList, r.adc_H.toNat)]

/-- The 18 named fields of a calibration record (30_encoding.md R75). -/
def calFieldList (c : Cal) : List (List Char × Int) :=
  [("T1".toList, c.dig_T1.toNat), ("T2".toList, c.dig_T2.toInt), ("T3".toList, c.dig_T3.toInt),
   ("P1".toList, c.dig_P1.toNat), ("P2".toList, c.dig_P2.toInt), ("P3".toList, c.dig_P3.toInt),
   ("P4".toList, c.dig_P4.toInt), ("P5".toList, c.dig_P5.toInt), ("P6".toList, c.dig_P6.toInt),
   ("P7".toList, c.dig_P7.toInt), ("P8".toList, c.dig_P8.toInt), ("P9".toList, c.dig_P9.toInt),
   ("H1".toList, c.dig_H1.toNat), ("H2".toList, c.dig_H2.toInt), ("H3".toList, c.dig_H3.toNat),
   ("H4".toList, c.dig_H4.toInt), ("H5".toList, c.dig_H5.toInt), ("H6".toList, c.dig_H6.toInt)]

/-- Every field of the list is given once in `fs`, with its value. -/
def GivenOnce (fs fields : List (List Char × Int)) : Prop :=
  ∀ f ∈ fields, fs.filter (fun g => g.1 = f.1) = [f]

/-- Fields with names of their own are given once each, in any order. -/
theorem givenOnce_of_perm {fs fields : List (List Char × Int)} (hnames : (fields.map Prod.fst).Nodup)
    (hperm : fs.Perm fields) : GivenOnce fs fields := by
  intro f hf
  refine List.perm_singleton.1 ((hperm.filter _).trans (List.Perm.of_eq ?_))
  clear hperm
  induction fields with
  | nil => cases hf
  | cons g fields ih =>
    obtain ⟨hg, hnames⟩ := List.nodup_cons.1 hnames
    rcases List.mem_cons.1 hf with rfl | hf'
    · have hrest : fields.filter (fun g => g.1 = f.1) = [] := by
        refine List.filter_eq_nil_iff.2 fun a ha hname => hg ?_
        exact List.mem_map.2 ⟨a, ha, by simpa using hname⟩
      rw [List.filter_cons_of_pos (by simp), hrest]
    · have hne : g.1 ≠ f.1 := fun hname => hg (hname ▸ List.mem_map_of_mem hf')
      rw [List.filter_cons_of_neg (by simpa using hne), ih hnames hf']

theorem rawFieldList_names_nodup (r : Raw) : ((rawFieldList r).map Prod.fst).Nodup := by
  simp only [rawFieldList, List.map_cons, List.map_nil]
  decide

theorem calFieldList_names_nodup (c : Cal) : ((calFieldList c).map Prod.fst).Nodup := by
  simp only [calFieldList, List.map_cons, List.map_nil]
  decide

/-- `Option.bind_eq_some_iff` in the form that a line of a `do` block has. -/
theorem doBind_eq_some_iff {α β : Type} (x : Option α) (f : α → Option β) (b : β) :
    (x >>= f) = some b ↔ ∃ a, x = some a ∧ f a = some b :=
  Option.bind_eq_some_iff

/-- 30_encoding.md R75: the field form of LDRAW. -/
theorem rawFields_eq_some_iff (fs : List (List Char × Int)) (r : Raw) :
    rawFields fs = some r ↔ fs.length = 3 ∧ GivenOnce fs (rawFieldList r) := by
  simp only [GivenOnce, rawFieldList, List.forall_mem_cons, ← fieldU_eq_some_iff]
  unfold rawFields
  split
  · rename_i hlen
    simp only [↓doBind_eq_some_iff]
    constructor
    · rintro ⟨p, hp, t, ht, h, hh, ⟨⟩⟩
      exact ⟨hlen, hp, ht, hh, by simp⟩
    · rintro ⟨_, hp, ht, hh, _⟩
      exact ⟨_, hp, _, ht, _, hh, rfl⟩
  · rename_i hlen
    simp [hlen]

/-- 30_encoding.md R75: the field form of LDCAL. -/
theorem calFields_eq_some_iff (fs : List (List Char × Int)) (c : Cal) :
    calFields fs = some c ↔ fs.length = 18 ∧ GivenOnce fs (calFieldList c) := by
  simp (disch := decide) only [GivenOnce, calFieldList, List.forall_mem_cons, ← fieldU_eq_some_iff,
    ← fieldS_eq_some_iff]
  unfold calFields
  split
  · rename_i hlen
    simp only [↓doBind_eq_some_iff]
    constructor
    · rintro ⟨t1, ht1, t2, ht2, t3, ht3, p1, hp1, p2, hp2, p3, hp3, p4, hp4, p5, hp5, p6, hp6, p7, hp7, p8, hp8, p9,
        hp9, h1, hh1, h2, hh2, h3, hh3, h4, hh4, h5, hh5, h6, hh6, ⟨⟩⟩
      exact ⟨hlen, ht1, ht2, ht3, hp1, hp2, hp3, hp4, hp5, hp6, hp7, hp8, hp9, hh1, hh2, hh3, hh4, hh5, hh6, by simp⟩
    · rintro ⟨_, ht1, ht2, ht3, hp1, hp2, hp3, hp4, hp5, hp6, hp7, hp8, hp9, hh1, hh2, hh3, hh4, hh5, hh6, _⟩
      exact ⟨_, ht1, _, ht2, _, ht3, _, hp1, _, hp2, _, hp3, _, hp4, _, hp5, _, hp6, _, hp7, _, hp8, _, hp9, _, hh1,
        _, hh2, _, hh3, _, hh4, _, hh5, _, hh6, rfl⟩
  · rename_i hlen
    simp [hlen]

/-- 30_encoding.md R76: the line of a field form is the load of the payload its record spells. -/
theorem assembleLine_ldraw_fields (order : AdcHOrder) (fs : List (List Char × Int)) (is : List Instr) :
    assembleLine order "LDRAW".toList (fs.map fun f => .field f.1 f.2) = some is ↔
      ∃ r, rawFields fs = some r ∧ is = [.ldraw (encodeRaw order r)] := by
  rw [assembleLine_ldraw, rawOperands, namedFields_map]
  simp only [Option.map_map, Option.map_eq_some_iff, Function.comp_apply, eq_comm (b := is)]

theorem assembleLine_ldcal_fields (order : AdcHOrder) (fs : List (List Char × Int)) (is : List Instr) :
    assembleLine order "LDCAL".toList (fs.map fun f => .field f.1 f.2) = some is ↔
      ∃ c, calFields fs = some c ∧ is = [.ldcal (encodeCal c)] := by
  rw [assembleLine_ldcal, calOperands, namedFields_map]
  simp only [Option.map_map, Option.map_eq_some_iff, Function.comp_apply, eq_comm (b := is)]

/-- Settles O59: a form is taken exactly when it gives each of the record's fields once, which any order does. -/
theorem assembledFieldsAreTheGivenValues : Obligations.AssembledFieldsAreTheGivenValues := by
  refine ⟨fun fs r h => ?_, fun fs c h => ?_, fun order fs is =>
      ⟨assembleLine_ldraw_fields order fs is, assembleLine_ldcal_fields order fs is⟩,
    fun fs r hperm => ?_, fun fs c hperm => ?_⟩
  · obtain ⟨hlen, hgiven⟩ := (rawFields_eq_some_iff fs r).1 h
    simp only [GivenOnce, rawFieldList, List.forall_mem_cons] at hgiven
    obtain ⟨hp, ht, hh, _⟩ := hgiven
    exact ⟨hlen, hp, ht, hh⟩
  · obtain ⟨hlen, hgiven⟩ := (calFields_eq_some_iff fs c).1 h
    simp only [GivenOnce, calFieldList, List.forall_mem_cons] at hgiven
    simp only [hlen, hgiven, and_self]
  · exact (rawFields_eq_some_iff fs r).2 ⟨hperm.length_eq, givenOnce_of_perm (rawFieldList_names_nodup r) hperm⟩
  · exact (calFields_eq_some_iff fs c).2 ⟨hperm.length_eq, givenOnce_of_perm (calFieldList_names_nodup c) hperm⟩

end Sys2Proof.Machine
end

section
/-!
PROOFS. Rounding to binary32 (00_scope.md R16). In units of 2^-149, the values whose significand is shifted by `k` lie
on the multiples of 2^k. `f32Round` picks the shift that fits the quotient and rounds to the nearest multiple; a value of a
smaller shift lies below 2^(k+23) units, which is a multiple itself and no farther from the quotient.
-/

namespace Sys2Proof.Machine

/-! The nearest integer to a quotient. -/

/-- A multiple of `den` is 0 or `den`, between which a remainder lies, or at least `den` away from both. -/
theorem multiple_cases {den : Int} (hden : 0 < den) (d : Int) :
    (d < 0 ∧ d * den ≤ -den) ∨ (d = 0 ∧ d * den = 0) ∨ (d = 1 ∧ d * den = den) ∨ (1 < d ∧ 2 * den ≤ d * den) := by
  rcases lt_trichotomy d 0 with h | rfl | h
  · exact .inl ⟨h, by nlinarith⟩
  · exact .inr (.inl ⟨rfl, Int.zero_mul den⟩)
  · rcases eq_or_lt_of_le (show 1 ≤ d by omega) with rfl | h
    · exact .inr (.inr (.inl ⟨rfl, Int.one_mul den⟩))
    · exact .inr (.inr (.inr ⟨h, by nlinarith⟩))

/-- No multiple of `den` is nearer to `num` than the rounded one; where another is as near, the rounded one is even. -/
theorem roundHalfEven_nearest (num : Nat) {den : Nat} (hden : 0 < den) (j : Nat) :
    ((roundHalfEven num den : Int) * den - num).natAbs ≤ ((j : Int) * den - num).natAbs
      ∧ (((roundHalfEven num den : Int) * den - num).natAbs = ((j : Int) * den - num).natAbs →
          j = roundHalfEven num den ∨ roundHalfEven num den % 2 = 0) := by
  have hmod : num % den < den := Nat.mod_lt num hden
  have hshift : ∀ i : Int, i * den - num = (i - (num / den : Nat)) * den - (num % den : Nat) := fun i => by
    have hdiv : (num : Int) = den * (num / den : Nat) + (num % den : Nat) := by
      exact_mod_cast (Nat.div_add_mod num den).symm
    linear_combination -hdiv
  have hround := roundHalfEven_cases num den
  rw [hshift, hshift]
  have hx := multiple_cases (Int.natCast_pos.2 hden) ((roundHalfEven num den : Int) - (num / den : Nat))
  have hj := multiple_cases (Int.natCast_pos.2 hden) ((j : Int) - (num / den : Nat))
  generalize ((roundHalfEven num den : Int) - (num / den : Nat)) * den = zx at *
  generalize ((j : Int) - (num / den : Nat)) * den = zj at *
  omega

/-- An exact quotient is its own rounding. -/
theorem roundHalfEven_mul (j : Nat) {den : Nat} (hden : 0 < den) : roundHalfEven (j * den) den = j := by
  have hmod : j * den % den = 0 := Nat.mul_mod_left j den
  have hdiv : j * den / den = j := Nat.mul_div_cancel j hden
  have hround := roundHalfEven_cases (j * den) den
  rw [hmod, hdiv] at hround
  omega

/-- A quotient below the middle of `m` and `m + 1` is not rounded above `m`. -/
theorem roundHalfEven_le_of_lt {num den m : Nat} (h : 2 * num < (2 * m + 1) * den) : roundHalfEven num den ≤ m := by
  have hdiv : den * (num / den) + num % den = num := Nat.div_add_mod num den
  have hround := roundHalfEven_cases num den
  by_contra! hlt
  have hq : m ≤ num / den := by omega
  have hm : m * den ≤ den * (num / den) := by
    rw [Nat.mul_comm]
    exact Nat.mul_le_mul_left den hq
  have hexpand : (2 * m + 1) * den = 2 * (m * den) + den := by ring
  rcases Nat.lt_or_ge m (num / den) with hmq | hmq
  · have hm' : m * den + den ≤ den * (num / den) := by
      calc m * den + den = den * (m + 1) := by ring
        _ ≤ den * (num / den) := Nat.mul_le_mul_left den hmq
    omega
  · omega

/-! The shift and the significand that `f32Round` picks. -/

/-- The significand that `f32Round` gives a quotient: in units of 2^-149 it stands for `f32Sig * 2 ^ f32Shift`. -/
def f32Sig (num den : Nat) : Nat := roundHalfEven num (den * 2 ^ f32Shift num den)

theorem quotient_lt (num den : Nat) : num / den < 2 ^ f32Shift num den * 2 ^ 24 := by
  have hpow : 2 ^ ((num / den).log2 + 1) ≤ 2 ^ (f32Shift num den + 24) :=
    Nat.pow_le_pow_right (by decide) (by unfold f32Shift; omega)
  rw [← Nat.pow_add]
  exact lt_of_lt_of_le Nat.lt_log2_self hpow

/-- A quotient that is shifted has 24 bits above the shift. -/
theorem shift_eq_zero_or_le_quotient (num den : Nat) :
    f32Shift num den = 0 ∨ 2 ^ f32Shift num den * 2 ^ 23 ≤ num / den := by
  by_cases hk : f32Shift num den = 0
  · exact .inl hk
  · have hne : num / den ≠ 0 := by
      intro h0
      rw [f32Shift, h0] at hk
      exact hk rfl
    rw [← Nat.pow_add]
    refine .inr ((Nat.le_log2 hne).1 ?_)
    unfold f32Shift at *
    omega

/-- A shifted significand has 24 bits, or is 2^24 by rounding up. -/
theorem f32Sig_bounds (num den : Nat) :
    f32Sig num den ≤ 2 ^ 24 ∧ (f32Shift num den = 0 ∨ 2 ^ 23 ≤ f32Sig num den) := by
  have hround := roundHalfEven_bounds num (den * 2 ^ f32Shift num den)
  rw [← Nat.div_div_eq_div_mul] at hround
  obtain ⟨hlo, hhi⟩ := hround
  have hlt : num / den / 2 ^ f32Shift num den < 2 ^ 24 :=
    Nat.div_lt_of_lt_mul (quotient_lt num den)
  refine ⟨hhi.trans hlt, (shift_eq_zero_or_le_quotient num den).imp id fun hle => ?_⟩
  refine le_trans ((Nat.le_div_iff_mul_le (by positivity)).2 ?_) hlo
  rwa [Nat.mul_comm]

/-- 00_scope.md R16 with log entry 6's threshold 2^128 - 2^103: below it the pattern is finite, and it is made of the
shift and the significand. -/
theorem f32Round_eq {num den : Nat} (h : num < (2 ^ 128 - 2 ^ 103) * 2 ^ 149 * den) :
    f32Round num den = f32Shift num den * 2 ^ 23 + f32Sig num den
      ∧ f32Shift num den * 2 ^ 23 + f32Sig num den < 255 * 2 ^ 23 := by
  have hden : 0 < den := by
    rcases Nat.eq_zero_or_pos den with rfl | hpos
    · simp at h
    · exact hpos
  have hfinite : f32Shift num den * 2 ^ 23 + f32Sig num den < 255 * 2 ^ 23 := by
    have hsig := (f32Sig_bounds num den).1
    have hshift : f32Shift num den ≤ 253 := by
      rcases shift_eq_zero_or_le_quotient num den with h0 | hle
      · omega
      · by_contra! hgt
        have hpow : 2 ^ 254 ≤ 2 ^ f32Shift num den := Nat.pow_le_pow_right (by decide) hgt
        have hnum : num / den * den ≤ num := Nat.div_mul_le_self num den
        have hscale : 2 ^ 254 * 2 ^ 23 * den ≤ num / den * den :=
          Nat.mul_le_mul_right den (le_trans (Nat.mul_le_mul_right _ hpow) hle)
        omega
    rcases Nat.lt_or_ge (f32Shift num den) 253 with hlt | hge
    · omega
    · have h253 : f32Shift num den = 253 := by omega
      have hsig' : f32Sig num den ≤ 2 ^ 24 - 1 := by
        refine roundHalfEven_le_of_lt ?_
        rw [h253]
        omega
      omega
  refine ⟨?_, hfinite⟩
  have hmin : f32Round num den = min (f32Shift num den * 2 ^ 23 + f32Sig num den) 0x7F800000 := rfl
  omega

/-! The values of the patterns. -/

/-- A pattern of a given sign, shift and significand: its value, whether the significand has carried or not. -/
theorem value_of_pattern {a : F32} {neg : Bool} {k q : Nat}
    (ha : a.toNat = (if neg then 2 ^ 31 else 0) + (k * 2 ^ 23 + q)) (hq : q ≤ 2 ^ 24) (hk : k = 0 ∨ 2 ^ 23 ≤ q)
    (hfinite : k * 2 ^ 23 + q < 255 * 2 ^ 23) :
    f32Finite a = true ∧ a.msb = neg ∧ f32Units a = q * 2 ^ k := by
  have hexp : f32Exp a = (k * 2 ^ 23 + q) / 2 ^ 23 := by
    rw [f32Exp, ha]
    split_ifs <;> omega
  have hfrac : f32Frac a = q % 2 ^ 23 := by
    rw [f32Frac, ha]
    split_ifs <;> omega
  refine ⟨?_, ?_, ?_⟩
  · simp only [f32Finite, bne_iff_ne]
    omega
  · rw [BitVec.msb_eq_decide, ha]
    cases neg with
    | false =>
      rw [if_neg Bool.false_ne_true, decide_eq_false_iff_not]
      omega
    | true =>
      rw [if_pos rfl, decide_eq_true_iff]
      omega
  · rw [f32Units, hexp, hfrac]
    rcases Nat.lt_or_ge q (2 ^ 23) with hsub | hnorm
    · obtain rfl : k = 0 := by omega
      rw [if_pos (by omega), Nat.mod_eq_of_lt hsub, Nat.pow_zero, Nat.mul_one]
    · rcases Nat.lt_or_ge q (2 ^ 24) with hlt | hge
      · have hdiv : (k * 2 ^ 23 + q) / 2 ^ 23 = k + 1 := by omega
        have hmod : 2 ^ 23 + q % 2 ^ 23 = q := by omega
        rw [hdiv, if_neg (by omega), hmod, Nat.add_sub_cancel]
      · obtain rfl : q = 2 ^ 24 := by omega
        have hdiv : (k * 2 ^ 23 + 2 ^ 24) / 2 ^ 23 = k + 2 := by omega
        rw [hdiv, if_neg (by omega), show k + 2 - 1 = k + 1 by omega, Nat.pow_succ]
        ring

/-- The values of the binade of shift `k` and above are multiples of 2^k; the others lie below 2^(k+23). -/
theorem f32Units_multiple_or_lt (b : F32) (k : Nat) :
    (∃ j, f32Units b = j * 2 ^ k) ∨ f32Units b < 2 ^ k * 2 ^ 23 := by
  have hfrac : f32Frac b < 2 ^ 23 := Nat.mod_lt _ (by decide)
  unfold f32Units
  split_ifs with he
  · have hpos : 0 < 2 ^ k := by positivity
    right
    calc f32Frac b < 1 * 2 ^ 23 := by omega
      _ ≤ 2 ^ k * 2 ^ 23 := Nat.mul_le_mul_right _ hpos
  · rcases Nat.le_total k (f32Exp b - 1) with hle | hlt
    · left
      refine ⟨(2 ^ 23 + f32Frac b) * 2 ^ (f32Exp b - 1 - k), ?_⟩
      rw [Nat.mul_assoc, ← Nat.pow_add, Nat.sub_add_cancel hle]
    · rcases Nat.eq_or_lt_of_le hlt with heq | hlt
      · exact .inl ⟨_, by rw [heq]⟩
      · right
        have hpow : 2 * 2 ^ (f32Exp b - 1) ≤ 2 ^ k := by
          rw [← Nat.pow_succ']
          exact Nat.pow_le_pow_right (by decide) hlt
        have hpos : 0 < 2 ^ (f32Exp b - 1) := by positivity
        nlinarith

theorem f32Units_lt {b : F32} (hb : f32Finite b = true) : f32Units b < 2 ^ 128 * 2 ^ 149 := by
  have hexp : f32Exp b < 255 := by
    have h8 : f32Exp b < 2 ^ 8 := Nat.mod_lt _ (by decide)
    simp only [f32Finite, bne_iff_ne] at hb
    omega
  have hfrac : f32Frac b < 2 ^ 23 := Nat.mod_lt _ (by decide)
  unfold f32Units
  split_ifs
  · omega
  · have hpow : 2 ^ (f32Exp b - 1) ≤ 2 ^ 253 := Nat.pow_le_pow_right (by decide) (by omega)
    have hmul := Nat.mul_le_mul (show 2 ^ 23 + f32Frac b ≤ 2 ^ 24 - 1 by omega) hpow
    omega

theorem f32Num_natAbs (b : F32) : (f32Num b).natAbs = f32Units b := by
  unfold f32Num
  split_ifs <;> omega

/-! `rne32` is nearest. -/

/-- No value of the binade of `f32Shift` and above is nearer than the picked one, for `roundHalfEven_nearest`; and the
values below it are farther than the binade's lowest one. -/
theorem f32Sig_nearest (num : Nat) {den : Nat} (hden : 0 < den) {u y : Nat}
    (hu : u = f32Sig num den * 2 ^ f32Shift num den)
    (hy : (∃ j, y = j * 2 ^ f32Shift num den) ∨ y < 2 ^ f32Shift num den * 2 ^ 23) :
    ((u : Int) * den - num).natAbs ≤ ((y : Int) * den - num).natAbs
      ∧ (((u : Int) * den - num).natAbs = ((y : Int) * den - num).natAbs → y = u ∨ f32Sig num den % 2 = 0) := by
  have hmultiple : ∀ j : Nat, (j * 2 ^ f32Shift num den : Nat) * (den : Int) = j * (den * 2 ^ f32Shift num den : Nat) :=
    fun j => by
      push_cast
      ring
  have hnear := fun j => roundHalfEven_nearest num (den := den * 2 ^ f32Shift num den) (by positivity) j
  have hsig : f32Sig num den = roundHalfEven num (den * 2 ^ f32Shift num den) := rfl
  rw [← hsig] at hnear
  have hgrid : ∀ j, y = j * 2 ^ f32Shift num den →
      ((u : Int) * den - num).natAbs ≤ ((y : Int) * den - num).natAbs
        ∧ (((u : Int) * den - num).natAbs = ((y : Int) * den - num).natAbs → y = u ∨ f32Sig num den % 2 = 0) := by
    rintro j rfl
    subst hu
    rw [hmultiple, hmultiple]
    refine ⟨(hnear j).1, fun htie => ((hnear j).2 htie).imp (fun hj => by rw [hj]) id⟩
  rcases hy with ⟨j, hj⟩ | hlt
  · exact hgrid j hj
  rcases shift_eq_zero_or_le_quotient num den with h0 | hle
  · exact hgrid y (by rw [h0, Nat.pow_zero, Nat.mul_one])
  · have hlowest := (hnear (2 ^ 23)).1
    rw [← hmultiple, ← hmultiple, ← hu] at hlowest
    have hbelow : (2 ^ 23 * 2 ^ f32Shift num den) * den ≤ num := by
      rw [Nat.mul_comm (2 ^ 23)]
      exact le_trans (Nat.mul_le_mul_right den hle) (Nat.div_mul_le_self num den)
    have hfarther : y * den < (2 ^ 23 * 2 ^ f32Shift num den) * den :=
      Nat.mul_lt_mul_of_pos_right (by rwa [Nat.mul_comm (2 ^ 23)]) hden
    rw [← Nat.cast_mul (2 ^ 23 * _) den] at hlowest
    rw [← Nat.cast_mul y den]
    omega

/-- The pattern `rne32` makes of a rational below the threshold of 00_scope.md R16's largest finite value. -/
theorem rne32_toNat {n : Int} {d : Nat} (h : n.natAbs < (2 ^ 128 - 2 ^ 103) * d) :
    (rne32 n d).toNat
        = (if decide (n < 0) then 2 ^ 31 else 0)
          + (f32Shift (n.natAbs * 2 ^ 149) d * 2 ^ 23 + f32Sig (n.natAbs * 2 ^ 149) d)
      ∧ f32Shift (n.natAbs * 2 ^ 149) d * 2 ^ 23 + f32Sig (n.natAbs * 2 ^ 149) d < 255 * 2 ^ 23 := by
  obtain ⟨hround, hfinite⟩ := f32Round_eq (num := n.natAbs * 2 ^ 149) (den := d) (by omega)
  refine ⟨?_, hfinite⟩
  rw [rne32, hround, BitVec.toNat_ofNat]
  simp only [decide_eq_true_eq]
  split_ifs <;> omega

/-- The value of that pattern: finite, of the rational's sign, and the picked multiple. -/
theorem rne32_value {n : Int} {d : Nat} (h : n.natAbs < (2 ^ 128 - 2 ^ 103) * d) :
    f32Finite (rne32 n d) = true ∧ (rne32 n d).msb = decide (n < 0)
      ∧ f32Units (rne32 n d)
          = f32Sig (n.natAbs * 2 ^ 149) d * 2 ^ f32Shift (n.natAbs * 2 ^ 149) d := by
  obtain ⟨hnat, hfinite⟩ := rne32_toNat h
  obtain ⟨hsig, hshift⟩ := f32Sig_bounds (n.natAbs * 2 ^ 149) d
  exact value_of_pattern hnat hsig hshift hfinite

/-- From magnitudes to signed values: a value of the other sign is as far off as both magnitudes together, so it is no
nearer than its own magnitude and ties only at 0. -/
theorem signed_nearest {u x num d : Nat} {a b z : Int} {neg even : Prop} [Decidable neg] (hd : 0 < d)
    (ha : a = if neg then -(u : Int) else u) (hz : z = if neg then -(num : Int) else num)
    (hb : b = x ∨ b = -(x : Int)) (hle : ((u : Int) * d - num).natAbs ≤ ((x : Int) * d - num).natAbs)
    (htie : ((u : Int) * d - num).natAbs = ((x : Int) * d - num).natAbs → x = u ∨ even)
    (hzero : ((u : Int) * d - num).natAbs ≤ num) :
    (a * d - z).natAbs ≤ (b * d - z).natAbs ∧ ((a * d - z).natAbs = (b * d - z).natAbs → b = a ∨ even) := by
  have hdist : (a * d - z).natAbs = ((u : Int) * d - num).natAbs := by
    rw [ha, hz]
    split_ifs
    · rw [← Int.natAbs_neg]
      ring_nf
    · rfl
  have hside : (b * d - z).natAbs = ((x : Int) * d - num).natAbs ∧ (x = u → b = a)
      ∨ (b * d - z).natAbs = x * d + num := by
    rw [ha, hz]
    rcases hb with rfl | rfl <;> split_ifs
    · exact .inr (by rw [sub_neg_eq_add]; norm_cast)
    · exact .inl ⟨rfl, fun h => by rw [h]⟩
    · refine .inl ⟨?_, fun h => by rw [h]⟩
      rw [← Int.natAbs_neg]
      ring_nf
    · refine .inr ?_
      rw [← Int.natAbs_neg, neg_mul, neg_sub, sub_neg_eq_add, add_comm]
      norm_cast
  rw [hdist]
  rcases hside with ⟨hbdist, hbval⟩ | hbdist
  · rw [hbdist]
    exact ⟨hle, fun h => (htie h).imp hbval id⟩
  · have hmag : ((x : Int) * d - num).natAbs ≤ x * d + num := by
      have hx : (0 : Int) ≤ x * d := by positivity
      omega
    rw [hbdist]
    refine ⟨hle.trans hmag, fun h => (htie (le_antisymm hle (hmag.trans h.ge))).imp (fun hxu => ?_) id⟩
    have hu0 : u * d = 0 := by
      rw [hxu] at h
      omega
    obtain rfl : u = 0 := (Nat.mul_eq_zero.1 hu0).resolve_right hd.ne'
    rw [ha]
    subst hxu
    simpa using hb

/-- 00_scope.md R16: `rne32` is nearest, ties to even, for every rational below the overflow threshold. -/
theorem rne32_nearest {n : Int} {d : Nat} (h : n.natAbs < (2 ^ 128 - 2 ^ 103) * d) : F32Nearest (rne32 n d) n d := by
  have hd : 0 < d := by omega
  obtain ⟨hfinite, hsign, hunits⟩ := rne32_value h
  have hnum : f32Num (rne32 n d) = if n < 0 then -(f32Units (rne32 n d) : Int) else f32Units (rne32 n d) := by
    rw [f32Num, hsign]
    simp only [decide_eq_true_eq]
  have heven : f32Sig (n.natAbs * 2 ^ 149) d % 2 = 0 → (rne32 n d).getLsbD 0 = false := fun heven => by
    have hmod : (rne32 n d).toNat % 2 = 0 := by
      rw [(rne32_toNat h).1]
      split_ifs <;> omega
    simp [BitVec.getLsbD, Nat.testBit_zero, hmod]
  have hden : (f32Den : Int) = 2 ^ 149 := by norm_num [f32Den]
  refine ⟨hfinite, fun b _ => ?_⟩
  have hnear := fun y hy => f32Sig_nearest (n.natAbs * 2 ^ 149) hd hunits (y := y) hy
  have hzero := (hnear 0 (.inl ⟨0, by rw [Nat.zero_mul]⟩)).1
  rw [Nat.cast_zero, zero_mul, zero_sub, Int.natAbs_neg, Int.natAbs_natCast] at hzero
  obtain ⟨hle, htie⟩ := hnear (f32Units b) (f32Units_multiple_or_lt b _)
  have hb : f32Num b = f32Units b ∨ f32Num b = -(f32Units b : Int) := by
    unfold f32Num
    split_ifs
    · exact .inr rfl
    · exact .inl rfl
  have hscaled : n * f32Den = if n < 0 then -((n.natAbs * 2 ^ 149 : Nat) : Int) else (n.natAbs * 2 ^ 149 : Nat) := by
    rw [hden]
    split_ifs <;> omega
  exact signed_nearest hd hnum hscaled hb hle (fun h => (htie h).imp id heven) hzero

end Sys2Proof.Machine
end

section
/-!
PROOFS. The conversions (41_compensate.md R122 to R125): each rounding is the nearest value, a rational that is not tiny
rounds to a normal value, and H_INT / 1024 needs no rounding.
-/

namespace Sys2Proof.Machine

theorem f32Den_cast : (f32Den : Int) = 2 ^ 149 := by norm_num [f32Den]

/-- Settles O14: `rne32` below the overflow threshold, with the unit written out. -/
theorem roundingIsNearestTiesToEven : Obligations.RoundingIsNearestTiesToEven := by
  intro n d _ h
  have hnear := rne32_nearest h
  simp only [F32Nearest, f32Den_cast] at hnear
  exact hnear

/-- A rational's numerator and denominator may be scaled alike. -/
theorem F32Nearest.unscale {a : F32} {n : Int} {d c : Nat} (hc : 0 < c) (h : F32Nearest a (n * c) (d * c)) :
    F32Nearest a n d := by
  have hscale : ∀ v : Int, (v * (d * c : Nat) - n * c * f32Den).natAbs = (v * d - n * f32Den).natAbs * c := fun v => by
    rw [← Int.natAbs_natCast c, ← Int.natAbs_mul, Int.natAbs_natCast]
    push_cast
    ring_nf
  obtain ⟨hfinite, hnear⟩ := h
  refine ⟨hfinite, fun b hb => ?_⟩
  obtain ⟨hle, htie⟩ := hnear b hb
  rw [hscale, hscale] at hle htie
  exact ⟨Nat.le_of_mul_le_mul_right hle hc, fun heq => htie (by rw [heq])⟩

/-! Zero and normal values. -/

@[simp] theorem rne32_zero (d : Nat) : rne32 0 d = 0#32 := by
  have hshift : f32Shift 0 d = 0 := by simp [f32Shift]
  have hround : f32Round 0 d = 0 := by simp [f32Round, hshift, roundHalfEven]
  simp [rne32, hround]

@[simp] theorem f32Num_zero : f32Num 0#32 = 0 := by decide

/-- A quotient of at least 2^23 units is rounded to more than its half: the significand has 24 bits. -/
theorem quotient_lt_two_mul_units {n : Int} {d : Nat} (h : n.natAbs < (2 ^ 128 - 2 ^ 103) * d)
    (hnorm : 2 ^ 23 ≤ n.natAbs * 2 ^ 149 / d) : n.natAbs * 2 ^ 149 / d < 2 * f32Units (rne32 n d) := by
  have hlt := quotient_lt (n.natAbs * 2 ^ 149) d
  rw [(rne32_value h).2.2]
  have hsig : 2 ^ 23 ≤ f32Sig (n.natAbs * 2 ^ 149) d := by
    rcases (f32Sig_bounds (n.natAbs * 2 ^ 149) d).2 with h0 | hle
    · have hbounds := (roundHalfEven_bounds (n.natAbs * 2 ^ 149) (d * 2 ^ f32Shift (n.natAbs * 2 ^ 149) d)).1
      rw [f32Sig]
      refine le_trans ?_ hbounds
      rwa [h0, Nat.pow_zero, Nat.mul_one]
    · exact hle
  have hmul := Nat.mul_le_mul_right (2 ^ f32Shift (n.natAbs * 2 ^ 149) d) hsig
  omega

/-- A value of at least 2^23 units is normal. -/
theorem f32Exp_ne_zero_of_units {a : F32} (h : 2 ^ 23 ≤ f32Units a) : f32Exp a ≠ 0 := by
  intro h0
  have hfrac : f32Frac a < 2 ^ 23 := Nat.mod_lt _ (by decide)
  rw [f32Units, if_pos h0] at h
  omega

/-- 41_compensate.md R125: a pattern that is no NaN, infinite, subnormal or -0.0. -/
def NormalOrZero (a : F32) : Prop := f32Finite a = true ∧ (f32Exp a = 0 → a = 0#32)

/-- 41_compensate.md R125: a rational that is 0 or at least 2^-125 rounds to +0.0 or to a normal value. -/
theorem rne32_normalOrZero {n : Int} {d : Nat} (h : n.natAbs < (2 ^ 128 - 2 ^ 103) * d)
    (hsmall : n ≠ 0 → d ≤ n.natAbs * 2 ^ 125) : NormalOrZero (rne32 n d) := by
  refine ⟨(rne32_value h).1, fun hexp => ?_⟩
  rcases eq_or_ne n 0 with rfl | hn
  · exact rne32_zero d
  · have hd : 0 < d := by omega
    have hnorm : 2 ^ 24 ≤ n.natAbs * 2 ^ 149 / d := by
      rw [Nat.le_div_iff_mul_le hd]
      have := hsmall hn
      omega
    have hunits := quotient_lt_two_mul_units h (by omega)
    exact absurd hexp (f32Exp_ne_zero_of_units (by omega))

/-! The rationals of the conversions. -/

theorem s64_natAbs_le (p : S64) : p.toInt.natAbs ≤ 2 ^ 63 := by
  have h := toInt_bounds (by decide) p
  norm_num at h
  omega

/-- A second rounding divides a binary32 value of its first, which is 0 or at least 1 in magnitude. -/
theorem f32Num_rne32_bounds {n : Int} (h : n.natAbs ≤ 2 ^ 63) :
    (f32Num (rne32 n 1)).natAbs < 2 ^ 128 * 2 ^ 149
      ∧ (f32Num (rne32 n 1) ≠ 0 → 2 ^ 148 ≤ (f32Num (rne32 n 1)).natAbs) := by
  have hlt : n.natAbs < (2 ^ 128 - 2 ^ 103) * 1 := by omega
  rw [f32Num_natAbs]
  refine ⟨f32Units_lt (rne32_value hlt).1, fun hne => ?_⟩
  have hn : n ≠ 0 := by
    rintro rfl
    exact hne (by rw [rne32_zero, f32Num_zero])
  have hunits := quotient_lt_two_mul_units hlt (by rw [Nat.div_one]; omega)
  rw [Nat.div_one] at hunits
  omega

theorem cvtT_nearest (t : S32) : F32Nearest (cvtT t) t.toInt 100 := by
  have ht := s32_bounds t
  exact rne32_nearest (by omega)

theorem cvtP_roundOnce_nearest (p : S64) : F32Nearest (cvtP .roundOnce p) p.toInt 25600 := by
  have hp := s64_natAbs_le p
  exact rne32_nearest (by omega)

theorem tdiv_256_natAbs_le (p : S64) : (p.toInt.tdiv 256).natAbs ≤ 2 ^ 63 := by
  have hp := s64_natAbs_le p
  rw [Int.natAbs_tdiv]
  exact (Nat.div_le_self _ _).trans hp

/-- A finite value of an exponent field of at least 9 divides by 256 exactly, by its exponent field. -/
theorem exists_f32Num_div_256 {a : F32} (hfinite : f32Finite a = true) (hexp : 9 ≤ f32Exp a) :
    ∃ b : F32, f32Finite b = true ∧ f32Num a = f32Num b * 256 := by
  have hsub : (a - 0x04000000#32).toNat = a.toNat - 2 ^ 26 := by
    unfold f32Exp at hexp
    bv_omega
  have hexpb : f32Exp (a - 0x04000000#32) = f32Exp a - 8 := by
    unfold f32Exp at *
    omega
  have hfracb : f32Frac (a - 0x04000000#32) = f32Frac a := by
    unfold f32Exp f32Frac at *
    omega
  have hmsb : (a - 0x04000000#32).msb = a.msb := by
    rw [BitVec.msb_eq_decide, BitVec.msb_eq_decide, decide_eq_decide]
    unfold f32Exp at *
    omega
  have hunits : f32Units a = f32Units (a - 0x04000000#32) * 256 := by
    rw [f32Units, f32Units, hexpb, hfracb, if_neg (by omega), if_neg (by omega),
      show f32Exp a - 1 = f32Exp a - 8 - 1 + 8 by omega, Nat.pow_add]
    ring
  refine ⟨a - 0x04000000#32, ?_, ?_⟩
  · simp only [f32Finite, bne_iff_ne] at hfinite ⊢
    have h8 : f32Exp a < 2 ^ 8 := Nat.mod_lt _ (by decide)
    omega
  · rw [f32Num, f32Num, hmsb, hunits]
    split_ifs
    · push_cast
      ring
    · push_cast
      ring

/-- 41_compensate.md R123, F32_CHAIN: the first rounding is a multiple of 256 of a binary32 value. -/
theorem exists_f32Num_rne32_div_256 {n : Int} (h : n.natAbs ≤ 2 ^ 63) :
    ∃ b : F32, f32Finite b = true ∧ f32Num (rne32 n 1) = f32Num b * 256 := by
  rcases eq_or_ne (f32Num (rne32 n 1)) 0 with h0 | hne
  · exact ⟨0#32, by decide, by rw [h0, f32Num_zero, Int.zero_mul]⟩
  · refine exists_f32Num_div_256 (rne32_value (by omega)).1 ?_
    have hunits := (f32Num_rne32_bounds h).2 hne
    rw [f32Num_natAbs] at hunits
    by_contra! hexp
    have hfrac : f32Frac (rne32 n 1) < 2 ^ 23 := Nat.mod_lt _ (by decide)
    have hpow : 2 ^ (f32Exp (rne32 n 1) - 1) ≤ 2 ^ 7 := Nat.pow_le_pow_right (by decide) (by omega)
    unfold f32Units at hunits
    split_ifs at hunits
    · omega
    · have hmul := Nat.mul_le_mul (show 2 ^ 23 + f32Frac (rne32 n 1) ≤ 2 ^ 24 by omega) hpow
      omega

/-- 00_scope.md R14 in the words of R123. -/
theorem tdiv_256_eq (z : Int) : z.tdiv 256 = if z < 0 then -(-z / 256) else z / 256 := by
  split_ifs with hz
  · rw [← Int.tdiv_eq_ediv_of_nonneg (by omega), Int.neg_tdiv, neg_neg]
  · exact Int.tdiv_eq_ediv_of_nonneg (by omega)

/-- Settles O60: one rounding, or two of which the second divides the first's value. -/
theorem conversionsRoundToNearest : Obligations.ConversionsRoundToNearest := by
  refine ⟨cvtT_nearest, cvtP_roundOnce_nearest, fun p => ?_, fun p => ?_⟩
  · have hp := s64_natAbs_le p
    obtain ⟨b, hfinite, hb⟩ := exists_f32Num_rne32_div_256 hp
    refine ⟨rne32 p.toInt 1, b, rne32_nearest (by omega), hfinite, hb, F32Nearest.unscale (c := 256) (by decide) ?_⟩
    have hbound := (f32Num_rne32_bounds hp).1
    have hnear : F32Nearest (cvtP .f32Chain p) (f32Num (rne32 p.toInt 1)) (f32Den * 256 * 100) :=
      rne32_nearest (by unfold f32Den; omega)
    rw [hb, Nat.mul_right_comm] at hnear
    exact hnear
  · have hq := tdiv_256_natAbs_le p
    have hbound := (f32Num_rne32_bounds hq).1
    exact ⟨p.toInt.tdiv 256, rne32 (p.toInt.tdiv 256) 1, tdiv_256_eq p.toInt, rne32_nearest (by omega),
      rne32_nearest (by unfold f32Den; omega)⟩

theorem cvtP_normalOrZero (mode : PF32Mode) (p : S64) : NormalOrZero (cvtP mode p) := by
  have hp := s64_natAbs_le p
  cases mode with
  | roundOnce => exact rne32_normalOrZero (by omega) (by omega)
  | f32Chain =>
    obtain ⟨hlt, hge⟩ := f32Num_rne32_bounds hp
    refine rne32_normalOrZero (by unfold f32Den; omega) fun hne => ?_
    have h148 := hge hne
    unfold f32Den
    omega
  | intDivFirst =>
    obtain ⟨hlt, hge⟩ := f32Num_rne32_bounds (tdiv_256_natAbs_le p)
    refine rne32_normalOrZero (by unfold f32Den; omega) fun hne => ?_
    have h148 := hge hne
    unfold f32Den
    omega

/-- 41_compensate.md R125: INT_DIV_FIRST truncates a small P_INT to 0. -/
theorem cvtP_intDivFirst_of_small {p : S64} (hlo : -255 ≤ p.toInt) (hhi : p.toInt ≤ 255) :
    cvtP .intDivFirst p = 0#32 := by
  have hq : p.toInt.tdiv 256 = 0 := by
    rw [tdiv_256_eq]
    split_ifs <;> omega
  simp only [cvtP, hq, rne32_zero, f32Num_zero]

/-- Settles O27: every operand is 0 or far above 2^-126, and far below the overflow threshold. -/
theorem conversionsAreNeverSpecial : Obligations.ConversionsAreNeverSpecial := by
  refine ⟨fun t => ?_, cvtP_normalOrZero, fun h => ?_, fun p => cvtP_intDivFirst_of_small⟩
  · have ht := s32_bounds t
    exact rne32_normalOrZero (by omega) (by omega)
  · have hh := h.isLt
    exact rne32_normalOrZero (by omega) (by omega)

/-- A quotient that is a multiple of its shift's unit is exact. -/
theorem f32Units_rne32_of_dvd {n : Int} {d : Nat} (h : n.natAbs < (2 ^ 128 - 2 ^ 103) * d)
    (hdvd : d * 2 ^ f32Shift (n.natAbs * 2 ^ 149) d ∣ n.natAbs * 2 ^ 149) :
    f32Units (rne32 n d) * d = n.natAbs * 2 ^ 149 := by
  have hd : 0 < d := by omega
  obtain ⟨j, hj⟩ := hdvd
  have hsig : f32Sig (n.natAbs * 2 ^ 149) d = j := by
    have hround := roundHalfEven_mul j (den := d * 2 ^ f32Shift (n.natAbs * 2 ^ 149) d) (by positivity)
    rwa [Nat.mul_comm j, ← hj] at hround
  rw [(rne32_value h).2.2, hsig]
  refine Eq.trans ?_ hj.symm
  ring

/-- 41_compensate.md R124: 24 bits of H_INT over 2^10 are shifted by 139 at most. -/
theorem f32Shift_of_lt {h : Nat} (hlt : h < 2 ^ 24) : f32Shift (h * 2 ^ 149) 1024 ≤ 139 := by
  rcases shift_eq_zero_or_le_quotient (h * 2 ^ 149) 1024 with h0 | hle
  · omega
  · by_contra! hgt
    have hpow : 2 ^ 140 ≤ 2 ^ f32Shift (h * 2 ^ 149) 1024 := Nat.pow_le_pow_right (by decide) hgt
    omega

/-- Settles O28: H_INT / 1024 is a multiple of its shift's unit. -/
theorem humidityConversionIsExact : Obligations.HumidityConversionIsExact := by
  intro h hlt
  have hshift : f32Shift ((h.toNat : Int).natAbs * 2 ^ 149) 1024 ≤ 139 := f32Shift_of_lt hlt
  have hbound : (h.toNat : Int).natAbs < (2 ^ 128 - 2 ^ 103) * 1024 := by omega
  have hexact : f32Units (cvtH h) * 1024 = h.toNat * 2 ^ 149 := by
    refine f32Units_rne32_of_dvd hbound (Dvd.dvd.mul_left ?_ _)
    have hunit : ∀ k, 1024 * 2 ^ k = 2 ^ (10 + k) := fun k => by rw [Nat.pow_add]
    rw [hunit]
    exact pow_dvd_pow 2 (by omega)
  have hsign : (cvtH h).msb = false := by
    rw [cvtH, (rne32_value hbound).2.1]
    simp
  rw [f32Num, hsign, f32Den_cast]
  simp only [Bool.false_eq_true, if_false]
  exact_mod_cast hexact

/-- Settles O29: the patterns by evaluation; the zero of every mode by its own lemma. -/
theorem conversionExamples : Obligations.ConversionExamples :=
  ⟨by decide, by decide, by decide, by decide, by decide, by decide, cvtP_zero, by decide, by decide⟩

end Sys2Proof.Machine
end
